-- ==== Sys2Proof/Word.lean ====
section
/-! DEFINITION. The word types of the I2CA image encoder block (spec/00_scope.md R4, R5). -/

namespace Sys2Proof

/-- A register and the register data bus: `REG_BITS` = 32; also a byte address, `ADDR_BITS` = 32 (R4). -/
abbrev Word := BitVec 32

/-- The SRC_W, SRC_H and MAX_DIM fields: `DIM_BITS` = 16 (R4). -/
abbrev Half := BitVec 16

/-- A byte of system memory, and one 8-bit channel of a sample (00_scope R9, 20_memory R63). -/
abbrev Byte := BitVec 8

/-- A 4-bit intensity (00_scope glossary), and the ERRCODE field (10_state R32). -/
abbrev Nibble := BitVec 4

/-- One host register transaction, `T` (30_encoding R90). -/
abbrev TWord := BitVec 41

end Sys2Proof
end

