-- ==== Sys2Proof/Config.lean ====
section
/-! DEFINITION. The parameters of spec/00_scope.md R4 that the spec leaves open or keeps as parameters, and the free
values: what the spec says is 'any value' (93_implementation_defined.md). -/

namespace Sys2Proof

/-- A half-open range of system byte addresses, `[lo, hi)`. -/
structure AddrRange where
  lo : Nat
  hi : Nat
  deriving DecidableEq, Repr

/-- `LUMA_ARITH`: how the luma weighting is evaluated (42_quantizer R191, R192). -/
inductive LumaArith where
  /-- EXACT, the block's arithmetic (R191). -/
  | decimal
  /-- BINARY64, IEEE 754 double arithmetic, for comparison with a software reference (R192). -/
  | binary64
  deriving DecidableEq, Repr

/-- The parameters that a step reads. `State` carries them as plain data, so that a statement about every state is a
statement about every platform; no step changes them (10_state R20, 70 R303). DESIGN CHOICE, logs 4, 5 and 6. -/
structure Config where
  /-- `LUMA_ARITH` (00_scope R4). -/
  lumaArith : LumaArith
  /-- The addresses where the platform predicate `MemOK` is false (60_exceptions R266), as ranges: every predicate on
  the 2^32 addresses is such a list. -/
  memErr : List AddrRange
  /-- The addresses of memory with side effects, on which a region gives no defined result (20_memory R71). -/
  device : List AddrRange
  deriving DecidableEq, Repr

/-- The platform that `State.reset` stands on: the block's own LUMA_ARITH (R4), every byte answering and no memory
with side effects. DESIGN CHOICE (unsafe for a claim about a run from reset), logs 4 and 5. -/
def Config.plain : Config := { lumaArith := .decimal, memErr := [], device := [] }

/-- `CSR_BASE`, the system address of register offset 0x00: OPEN (00_scope R4). No step reads it. Log 7. -/
opaque Config.csrBase : Word

/-- Free bytes: what a byte of `DST_REGION` holds after a BUS_ERROR (60 R269) or after a reset while BUSY (70 R300),
and what the host reads there while BUSY (20_memory R74 item 4). DESIGN CHOICE, log 11. -/
opaque Config.freeByte : Nat → BitVec 8

/-- Free choices: whether a bad byte of `SRC_REGION` outside NEED ends a job with BUS_ERROR (60 R266). DESIGN CHOICE,
log 14. -/
opaque Config.freeChoice : Nat → Bool

/-- Free words: the 32-bit fields of JOB after the reset event (70 R300). DESIGN CHOICE, log 12. -/
opaque Config.freeWord : Nat → BitVec 32

/-- Free halves: the 16-bit fields of JOB after the reset event (70 R300). DESIGN CHOICE, log 12. -/
opaque Config.freeHalf : Nat → BitVec 16

end Sys2Proof
end

