-- ==== Sys2Proof/Syntax.lean ====
section
/-! DEFINITION. The 24 kinds of host register transaction (spec/30_encoding.md R93, spec/opcode_table.json), one
constructor per row, and the ten registers they name (10_state R23). -/

namespace Sys2Proof

/-- The ten registers of the register map (10_state R23). -/
inductive Reg where
  | id
  | ctrl
  | status
  | srcAddr
  | srcSize
  | maxDim
  | dstAddr
  | outW
  | outH
  | outLen
  deriving DecidableEq, Repr

/-- A transaction. A read has no operand but a reserved offset: the WDATA of a read 'is ignored, and encoders set it
to 0' (R90; DEDUCED, log 20). A write carries all 32 bits of WDATA, ignored ones too. -/
inductive Instr where
  /-- R120 -/
  | rdId
  /-- R121 -/
  | wrId (wdata : Word)
  /-- R122 -/
  | rdCtrl
  /-- R124: a CTRL write with WDATA[0] = 0 -/
  | wrCtrl (wdata : Word)
  /-- R126: a CTRL write with WDATA[1:0] = 01 -/
  | startNearest (wdata : Word)
  /-- R127: a CTRL write with WDATA[1:0] = 11 -/
  | startBilinear (wdata : Word)
  /-- R128 -/
  | rdStatus
  /-- R129 -/
  | wrStatus (wdata : Word)
  /-- R130 -/
  | rdSrcAddr
  /-- R131 -/
  | wrSrcAddr (wdata : Word)
  /-- R132 -/
  | rdSrcSize
  /-- R133 -/
  | wrSrcSize (wdata : Word)
  /-- R134 -/
  | rdMaxDim
  /-- R135 -/
  | wrMaxDim (wdata : Word)
  /-- R136 -/
  | rdDstAddr
  /-- R137 -/
  | wrDstAddr (wdata : Word)
  /-- R138 -/
  | rdOutW
  /-- R139 -/
  | wrOutW (wdata : Word)
  /-- R140 -/
  | rdOutH
  /-- R141 -/
  | wrOutH (wdata : Word)
  /-- R142 -/
  | rdOutLen
  /-- R143 -/
  | wrOutLen (wdata : Word)
  /-- R144: a read of an offset that is none of the ten -/
  | rdRsv (off : Byte)
  /-- R145: a write to an offset that is none of the ten -/
  | wrRsv (off : Byte) (wdata : Word)
  deriving DecidableEq, Repr

/-- The kind's name in the decode map of R93. -/
def Instr.mnemonic : Instr → String
  | .rdId => "RD_ID"
  | .wrId _ => "WR_ID"
  | .rdCtrl => "RD_CTRL"
  | .wrCtrl _ => "WR_CTRL"
  | .startNearest _ => "START_NEAREST"
  | .startBilinear _ => "START_BILINEAR"
  | .rdStatus => "RD_STATUS"
  | .wrStatus _ => "WR_STATUS"
  | .rdSrcAddr => "RD_SRC_ADDR"
  | .wrSrcAddr _ => "WR_SRC_ADDR"
  | .rdSrcSize => "RD_SRC_SIZE"
  | .wrSrcSize _ => "WR_SRC_SIZE"
  | .rdMaxDim => "RD_MAX_DIM"
  | .wrMaxDim _ => "WR_MAX_DIM"
  | .rdDstAddr => "RD_DST_ADDR"
  | .wrDstAddr _ => "WR_DST_ADDR"
  | .rdOutW => "RD_OUT_W"
  | .wrOutW _ => "WR_OUT_W"
  | .rdOutH => "RD_OUT_H"
  | .wrOutH _ => "WR_OUT_H"
  | .rdOutLen => "RD_OUT_LEN"
  | .wrOutLen _ => "WR_OUT_LEN"
  | .rdRsv _ => "RD_RSV"
  | .wrRsv _ _ => "WR_RSV"

end Sys2Proof
end

