-- ==== Sys2Proof/Decode.lean ====
section
/-! DEFINITION. Decoding a 41-bit transaction word, and encoding one (spec/30_encoding.md R90 to R97). Decoding is total:
'No transaction word is illegal' (R95). -/

namespace Sys2Proof

/-- `WE`, bit [40]: 0 = read, 1 = write (R90). -/
def TWord.we (t : TWord) : Bool := t.getLsbD 40

/-- `OFF`, bits [39:32]: the byte offset of the register from CSR_BASE (R90). -/
def TWord.off (t : TWord) : Byte := t.extractLsb' 32 8

/-- `WDATA`, bits [31:0] (R90). -/
def TWord.wdata (t : TWord) : Word := t.extractLsb' 0 32

/-- The byte offset of each register (10_state R23). -/
def Reg.offset : Reg → Byte
  | .id => 0x00#8
  | .ctrl => 0x04#8
  | .status => 0x08#8
  | .srcAddr => 0x0C#8
  | .srcSize => 0x10#8
  | .maxDim => 0x14#8
  | .dstAddr => 0x18#8
  | .outW => 0x1C#8
  | .outH => 0x20#8
  | .outLen => 0x24#8

/-- The register at an offset; none at a reserved offset: 0x28 to 0xFC, and bits [1:0] not 0 (R96). -/
def regAt (off : Byte) : Option Reg :=
  if off = 0x00#8 then some .id
  else if off = 0x04#8 then some .ctrl
  else if off = 0x08#8 then some .status
  else if off = 0x0C#8 then some .srcAddr
  else if off = 0x10#8 then some .srcSize
  else if off = 0x14#8 then some .maxDim
  else if off = 0x18#8 then some .dstAddr
  else if off = 0x1C#8 then some .outW
  else if off = 0x20#8 then some .outH
  else if off = 0x24#8 then some .outLen
  else none

/-- A read transaction of an offset (R93, the RD rows). -/
def decodeRead (off : Byte) : Instr :=
  match regAt off with
  | some .id => .rdId
  | some .ctrl => .rdCtrl
  | some .status => .rdStatus
  | some .srcAddr => .rdSrcAddr
  | some .srcSize => .rdSrcSize
  | some .maxDim => .rdMaxDim
  | some .dstAddr => .rdDstAddr
  | some .outW => .rdOutW
  | some .outH => .rdOutH
  | some .outLen => .rdOutLen
  | none => .rdRsv off

/-- A CTRL write: WDATA[0] = 0 is WR_CTRL, WDATA[1:0] = 01 START_NEAREST, WDATA[1:0] = 11 START_BILINEAR (R93, R94). -/
def decodeCtrlWrite (wdata : Word) : Instr :=
  if wdata.getLsbD 0 then
    if wdata.getLsbD 1 then .startBilinear wdata else .startNearest wdata
  else .wrCtrl wdata

/-- A write transaction to an offset (R93, the WR and START rows). -/
def decodeWrite (off : Byte) (wdata : Word) : Instr :=
  match regAt off with
  | some .id => .wrId wdata
  | some .ctrl => decodeCtrlWrite wdata
  | some .status => .wrStatus wdata
  | some .srcAddr => .wrSrcAddr wdata
  | some .srcSize => .wrSrcSize wdata
  | some .maxDim => .wrMaxDim wdata
  | some .dstAddr => .wrDstAddr wdata
  | some .outW => .wrOutW wdata
  | some .outH => .wrOutH wdata
  | some .outLen => .wrOutLen wdata
  | none => .wrRsv off wdata

/-- The transaction kind and operands of a word (R91, R93). -/
def decode (t : TWord) : Instr :=
  if TWord.we t then decodeWrite (TWord.off t) (TWord.wdata t) else decodeRead (TWord.off t)

/-- The word `{WE, OFF, WDATA}` (R90, R98). -/
def packWord (we : Bool) (off : Byte) (wdata : Word) : TWord := BitVec.ofBool we ++ off ++ wdata

/-- A read of an offset; 'encoders set it to 0', the WDATA (R90). -/
def readWord (off : Byte) : TWord := packWord false off 0#32

/-- A write to an offset (R90). -/
def writeWord (off : Byte) (wdata : Word) : TWord := packWord true off wdata

/-- The word of a transaction (R90, R93). -/
def encode : Instr → TWord
  | .rdId => readWord (Reg.offset .id)
  | .wrId wdata => writeWord (Reg.offset .id) wdata
  | .rdCtrl => readWord (Reg.offset .ctrl)
  | .wrCtrl wdata => writeWord (Reg.offset .ctrl) wdata
  | .startNearest wdata => writeWord (Reg.offset .ctrl) wdata
  | .startBilinear wdata => writeWord (Reg.offset .ctrl) wdata
  | .rdStatus => readWord (Reg.offset .status)
  | .wrStatus wdata => writeWord (Reg.offset .status) wdata
  | .rdSrcAddr => readWord (Reg.offset .srcAddr)
  | .wrSrcAddr wdata => writeWord (Reg.offset .srcAddr) wdata
  | .rdSrcSize => readWord (Reg.offset .srcSize)
  | .wrSrcSize wdata => writeWord (Reg.offset .srcSize) wdata
  | .rdMaxDim => readWord (Reg.offset .maxDim)
  | .wrMaxDim wdata => writeWord (Reg.offset .maxDim) wdata
  | .rdDstAddr => readWord (Reg.offset .dstAddr)
  | .wrDstAddr wdata => writeWord (Reg.offset .dstAddr) wdata
  | .rdOutW => readWord (Reg.offset .outW)
  | .wrOutW wdata => writeWord (Reg.offset .outW) wdata
  | .rdOutH => readWord (Reg.offset .outH)
  | .wrOutH wdata => writeWord (Reg.offset .outH) wdata
  | .rdOutLen => readWord (Reg.offset .outLen)
  | .wrOutLen wdata => writeWord (Reg.offset .outLen) wdata
  | .rdRsv off => readWord off
  | .wrRsv off wdata => writeWord off wdata

/-- The 22 specific rows of the decode map: the kind, `match` and `mask` (R93, opcode_table.json). -/
def decodeMap : List (String × TWord × TWord) :=
  [ ("RD_ID", 0x00000000000#41, 0x1FF00000000#41),
    ("WR_ID", 0x10000000000#41, 0x1FF00000000#41),
    ("RD_CTRL", 0x00400000000#41, 0x1FF00000000#41),
    ("WR_CTRL", 0x10400000000#41, 0x1FF00000001#41),
    ("START_NEAREST", 0x10400000001#41, 0x1FF00000003#41),
    ("START_BILINEAR", 0x10400000003#41, 0x1FF00000003#41),
    ("RD_STATUS", 0x00800000000#41, 0x1FF00000000#41),
    ("WR_STATUS", 0x10800000000#41, 0x1FF00000000#41),
    ("RD_SRC_ADDR", 0x00C00000000#41, 0x1FF00000000#41),
    ("WR_SRC_ADDR", 0x10C00000000#41, 0x1FF00000000#41),
    ("RD_SRC_SIZE", 0x01000000000#41, 0x1FF00000000#41) ] ++
  [ ("WR_SRC_SIZE", 0x11000000000#41, 0x1FF00000000#41),
    ("RD_MAX_DIM", 0x01400000000#41, 0x1FF00000000#41),
    ("WR_MAX_DIM", 0x11400000000#41, 0x1FF00000000#41),
    ("RD_DST_ADDR", 0x01800000000#41, 0x1FF00000000#41),
    ("WR_DST_ADDR", 0x11800000000#41, 0x1FF00000000#41),
    ("RD_OUT_W", 0x01C00000000#41, 0x1FF00000000#41),
    ("WR_OUT_W", 0x11C00000000#41, 0x1FF00000000#41),
    ("RD_OUT_H", 0x02000000000#41, 0x1FF00000000#41),
    ("WR_OUT_H", 0x12000000000#41, 0x1FF00000000#41),
    ("RD_OUT_LEN", 0x02400000000#41, 0x1FF00000000#41),
    ("WR_OUT_LEN", 0x12400000000#41, 0x1FF00000000#41) ]

/-- The two fallback rows, 'only when no row above matches' (R93). -/
def fallbackMap : List (String × TWord × TWord) :=
  [ ("RD_RSV", 0x00000000000#41, 0x10000000000#41),
    ("WR_RSV", 0x10000000000#41, 0x10000000000#41) ]

/-- A word matches a row: its masked bits are the row's `match` (R93). -/
def rowMatches (row : String × TWord × TWord) (t : TWord) : Bool := t &&& row.2.2 == row.2.1

/-- The system address of an access to an offset, `CSR_BASE + OFF` (R90). -/
def busAddress (off : Byte) : Nat := Config.csrBase.toNat + off.toNat

/-- The transaction word that the low `nbits` bits of `w` are, with every bit above them 0; none where a bit beyond
bit 40 is set: a transaction is one 41-bit word (R97). Log 21. -/
def tableWord (nbits w : Nat) : Option TWord :=
  if w % 2 ^ nbits < 2 ^ 41 then some (BitVec.ofNat 41 (w % 2 ^ nbits)) else none

/-- The transaction that the decoder reads from an opcode-table word (R93). -/
def decodeTableWord (nbits w : Nat) : Option Instr := (tableWord nbits w).map decode

end Sys2Proof
end

