-- ==== Sys2Proof/Machine/State.lean ====
section
/-! DEFINITION. The state of the block as plain data (spec/10_state.md), the state after reset (R44), and the reasons a
step can stop. -/

namespace Sys2Proof.Machine

/-- The sequencing state (R22): BUSY while a job runs. -/
inductive Phase where
  | idle
  | busy
  deriving DecidableEq, Repr

/-- The job latch JOB (R42), the configuration copied at START. -/
structure Job where
  src : Word
  ow : Half
  oh : Half
  maxDim : Half
  dst : Word
  filter : Bool
  deriving DecidableEq, Repr

/-- The causes of a job error (60_exceptions R261). -/
inductive ErrCode where
  /-- R262 -/
  | invalidDimensions
  /-- R263 -/
  | targetDimZero
  /-- R264 -/
  | addrRange
  /-- R265 -/
  | overlap
  /-- R266 -/
  | busError
  deriving DecidableEq, Repr

/-- What happens next around the block. The list of these in `State` says in which order the agents act (40 R146);
DESIGN CHOICE, log 1. -/
inductive Event where
  /-- The host issues one register transaction (30_encoding R90). -/
  | transaction (t : TWord)
  /-- The engine takes its completion step here, if one is enabled (44 R240). -/
  | engine
  /-- The platform asserts reset (70 R300). -/
  | reset
  /-- The host writes a byte of system memory by its own means (20_memory R60). -/
  | hostWrite (a : Nat) (v : Byte)
  /-- The host reads a byte of system memory by its own means (20_memory R60, R74). -/
  | hostRead (a : Nat)
  deriving DecidableEq, Repr

/-- System memory: (address, byte) cells in canonical form: addresses strictly rising, below 2^32, and no cell equal to
what an unlisted address reads as (20_memory R60). -/
abbrev Memory := List Host.Cell

/-- Everything the spec gives the block, system memory, and the model's own fields. -/
structure State where
  /-- PHASE (R22); STATUS.BUSY reads it (R29) -/
  phase : Phase
  /-- CTRL.FILTER (R26) -/
  filter : Bool
  /-- CTRL.IRQ_EN (R27) -/
  irqEn : Bool
  /-- STATUS.DONE (R30) -/
  done : Bool
  /-- STATUS.ERR (R31) -/
  err : Bool
  /-- STATUS.ERRCODE (R32) -/
  errcode : Nibble
  /-- SRC_ADDR (R34) -/
  srcAddr : Word
  /-- SRC_SIZE.SRC_W (R35) -/
  srcW : Half
  /-- SRC_SIZE.SRC_H (R36) -/
  srcH : Half
  /-- MAX_DIM.M (R37) -/
  maxDim : Half
  /-- DST_ADDR (R38) -/
  dstAddr : Word
  /-- OUT_W (R39) -/
  outW : Word
  /-- OUT_H (R40) -/
  outH : Word
  /-- OUT_LEN (R41) -/
  outLen : Word
  /-- JOB (R42) -/
  job : Job
  /-- system memory (R46, 20_memory R60) -/
  mem : Memory
  /-- RDATA, the response of the last read transaction (30_encoding R90); log 9 -/
  rdata : Word
  /-- the byte the host's own last memory read returned (20_memory R74); log 10 -/
  hostByte : Byte
  /-- what the agents do next, in order; the model's own field, log 1 -/
  events : List Event
  /-- the counter free values are drawn from; the model's own field, log 11 -/
  draws : Nat
  /-- the parameters (00_scope R4), which no step changes; logs 4 to 6 -/
  config : Config
  deriving DecidableEq, Repr

/-- Why the machine stops. No transaction stops it (40, 60 R273) and a job error is no stop (60 R270). -/
inductive Fault where
  /-- Raised by the host's own memory access (events `hostWrite` and `hostRead`) at an address beyond 2^32 - 1, which
  does not exist (20_memory R60). Safe: the model stops where there is nothing to access. Log 25. -/
  | noSuchAddress
  deriving DecidableEq, Repr

/-- Runs that have no meaning. -/
inductive Refusal where
  /-- Raised by an arm of `exec` whose instruction has no meaning yet. Safe. No arm raises it. -/
  | notModelled (mnemonic : String)
  /-- Raised by the completion step, and by a reset while BUSY, for a job with a region on memory with side effects:
  'undefined results, which a model treats as refused' (20_memory R71, 93 item 21). Safe. Log 5. -/
  | regionNotNormalMemory
  /-- Raised by the host's own write to `SRC_REGION` or `DST_REGION` while BUSY, for which 'a model has no step'
  (20_memory R79, 93 item 20). Safe. Log 16. -/
  | regionWrittenWhileBusy
  /-- Raised by the host's own access to memory with side effects, a device whose behaviour the spec does not give
  (20_memory R71). Safe. Log 5. -/
  | deviceAccess
  deriving DecidableEq, Repr

/-- JOB before the first START: unspecified by R42 and read by nothing; DESIGN CHOICE all zero (unsafe), log 12. -/
def Job.atReset : Job :=
  { src := 0#32, ow := 0#16, oh := 0#16, maxDim := 0#16, dst := 0#32, filter := false }

/-- The machine right after reset (R44, 70 R300, R302): IDLE, MAX_DIM.M = 1024, every other register 0, memory with
nothing listed, and nothing to happen next. -/
def State.reset : State :=
  { phase := .idle, filter := false, irqEn := false, done := false, err := false, errcode := 0#4,
    srcAddr := 0#32, srcW := 0#16, srcH := 0#16, maxDim := 1024#16, dstAddr := 0#32,
    outW := 0#32, outH := 0#32, outLen := 0#32, job := Job.atReset, mem := [],
    rdata := 0#32, hostByte := 0#8, events := [], draws := 0, config := Config.plain }

end Sys2Proof.Machine
end

