-- ==== Sys2Proof/Machine/Flags.lean ====
section
/-! DEFINITION. The flags: how STATUS and CTRL are assembled for a read (spec/30_encoding.md R92), the W1C rule of STATUS
(10_state R30, R31), the codes ERRCODE holds (60 R261) and the interrupt level (10_state R43). -/

namespace Sys2Proof.Machine

/-- The number of an error cause in STATUS.ERRCODE (60_exceptions R261). -/
def ErrCode.code : ErrCode → Nibble
  | .invalidDimensions => 1#4
  | .targetDimZero => 2#4
  | .addrRange => 3#4
  | .overlap => 4#4
  | .busError => 5#4

/-- STATUS.BUSY 'reads 1 exactly when PHASE = BUSY' (10_state R29). -/
def State.busy (s : State) : Bool := s.phase == .busy

/-- CTRL as read: `{29'b0, IRQ_EN, FILTER, 1'b0}` (R92, 10_state R25 to R28). -/
def ctrlWord (s : State) : Word :=
  0#29 ++ BitVec.ofBool s.irqEn ++ BitVec.ofBool s.filter ++ 0#1

/-- STATUS as read: `{24'b0, ERRCODE[3:0], 1'b0, ERR, DONE, BUSY}` (R92, 10_state R29 to R33). -/
def statusWord (s : State) : Word :=
  0#24 ++ s.errcode ++ 0#1 ++ BitVec.ofBool s.err ++ BitVec.ofBool s.done ++ BitVec.ofBool s.busy

/-- The interrupt output, a level: `irq = CTRL.IRQ_EN & (STATUS.DONE | STATUS.ERR)` (10_state R43, 60 R274). -/
def State.irq (s : State) : Bool := s.irqEn && (s.done || s.err)

/-- W1C: writing 1 clears the bit, writing 0 leaves it (10_state R30, R31). -/
def w1c (bit write : Bool) : Bool := bit && !write

end Sys2Proof.Machine
end

