-- ==== Sys2Proof/Machine/Operands.lean ====
section
/-! DEFINITION. The operand forms: the fields a write takes from WDATA (spec/30_encoding.md R91) and the word a read of a
register returns (R92). No operand is sign-extended, scaled or shifted (R91). -/

namespace Sys2Proof.Machine

/-- `FILTER = WDATA[1]` of a CTRL write (R91, 40 R123). -/
def wdataFilter (wdata : Word) : Bool := wdata.getLsbD 1

/-- `IRQ_EN = WDATA[2]` of a CTRL write (R91, 40 R123). -/
def wdataIrqEn (wdata : Word) : Bool := wdata.getLsbD 2

/-- 'clear DONE if WDATA[1] = 1' of a STATUS write (R91, 40 R129). -/
def wdataClearDone (wdata : Word) : Bool := wdata.getLsbD 1

/-- 'clear ERR if WDATA[2] = 1' of a STATUS write (R91, 40 R129). -/
def wdataClearErr (wdata : Word) : Bool := wdata.getLsbD 2

/-- `SRC_W = WDATA[15:0]` (R91, 40 R133). -/
def wdataSrcW (wdata : Word) : Half := wdata.extractLsb' 0 16

/-- `SRC_H = WDATA[31:16]` (R91, 40 R133). -/
def wdataSrcH (wdata : Word) : Half := wdata.extractLsb' 16 16

/-- `M = WDATA[15:0]`; WDATA[31:16] ignored (R91, 40 R135). -/
def wdataMaxDim (wdata : Word) : Half := wdata.extractLsb' 0 16

/-- The ID register, hardwired: "I", "2", "C", "A" from bit 31 down (10_state R24). -/
def idWord : Word := 0x49324341#32

/-- RDATA of a read of a register (R92). -/
def readReg (r : Reg) (s : State) : Word :=
  match r with
  | .id => idWord
  | .ctrl => ctrlWord s
  | .status => statusWord s
  | .srcAddr => s.srcAddr
  | .srcSize => s.srcH ++ s.srcW
  | .maxDim => 0#16 ++ s.maxDim
  | .dstAddr => s.dstAddr
  | .outW => s.outW
  | .outH => s.outH
  | .outLen => s.outLen

/-- RDATA of a read of a reserved offset (R92, R96). -/
def reservedWord : Word := 0#32

end Sys2Proof.Machine
end

