-- ==== Sys2Proof/Machine/TargetDims.lean ====
section
/-! DEFINITION. Round-half-up (spec/00_scope.md R7) and the target-dimension computation of the Resizer
(spec/41_resizer.md R160 to R165), exact on natural numbers (00_scope R6). -/

namespace Sys2Proof.Machine

/-- `rhu(p, q)`, the integer nearest to p/q, an exact tie going up, for q > 0 (00_scope R7). -/
def rhu (p q : Nat) : Nat := (2 * p + q) / (2 * q)

/-- Step 1, scale-down: the larger side becomes M, the smaller is scaled by the same ratio (R161). -/
def scaleDown (ow oh m : Nat) : Nat × Nat :=
  if max ow oh > m then
    if ow ≥ oh then (m, rhu (oh * m) ow) else (rhu (ow * m) oh, m)
  else (ow, oh)

/-- Step 2, even-width correction: the height is taken again from the ORIGINAL ratio, never from step 1's (R162). -/
def evenWidth (ow oh : Nat) (d : Nat × Nat) : Nat × Nat :=
  if d.1 % 2 = 1 then
    let w := if d.1 > 1 then d.1 - 1 else 2
    (w, rhu (oh * w) ow)
  else d

/-- TargetDims, the target width and height (R165): step 1, then step 2; step 3 changes nothing (R164). Meant for
ow, oh ≥ 1 (R160). -/
def targetDims (ow oh m : Nat) : Nat × Nat := evenWidth ow oh (scaleDown ow oh m)

end Sys2Proof.Machine
end

