-- ==== Sys2Proof/Machine/Region.lean ====
section
/-! DEFINITION. What a job's latch says of memory: its two regions (spec/20_memory.md R65), the checks of RunJob in their
priority order (44 R231, 60 R262 to R265, R267), and the platform's predicates on addresses (60 R266, 20_memory R71). -/

namespace Sys2Proof.Machine

/-- The number of bytes of system memory, 2^32 (20_memory R60). -/
def addressSpace : Nat := 2 ^ 32

/-- An address of the range. -/
def AddrRange.has (r : AddrRange) (a : Nat) : Bool := decide (r.lo ≤ a) && decide (a < r.hi)

/-- Two ranges share an address. -/
def AddrRange.meets (r q : AddrRange) : Bool := decide (max r.lo q.lo < min r.hi q.hi)

/-- `MemOK(a)`: a one-byte access to `a` completes without a bus error (00_scope R4, 60 R266). Only a job asks it; that
the host's own accesses do not is the model's choice (log 26). -/
def memOK (c : Config) (a : Nat) : Bool := !c.memErr.any (fun r => AddrRange.has r a)

/-- Some byte of a region answers with a bus error. -/
def badByteIn (c : Config) (q : AddrRange) : Bool := c.memErr.any (fun r => AddrRange.meets r q)

/-- A byte of memory with side effects (20_memory R71). -/
def isDevice (c : Config) (a : Nat) : Bool := c.device.any (fun r => AddrRange.has r a)

/-- Some byte of a region has side effects (20_memory R71). -/
def deviceIn (c : Config) (q : AddrRange) : Bool := c.device.any (fun r => AddrRange.meets r q)

/-- `(W, H)` of a job (41_resizer R165). -/
def jobDims (j : Job) : Nat × Nat := targetDims j.ow.toNat j.oh.toNat j.maxDim.toNat

/-- `LEN = (W * H) div 2` (20_memory R65, 43 R211). -/
def packedLen (d : Nat × Nat) : Nat := d.1 * d.2 / 2

/-- `SRC_REGION = [JOB.src, JOB.src + 4*JOB.ow*JOB.oh)` (20_memory R65). -/
def srcRegion (j : Job) : AddrRange :=
  { lo := j.src.toNat, hi := j.src.toNat + 4 * j.ow.toNat * j.oh.toNat }

/-- `DST_REGION = [JOB.dst, JOB.dst + LEN)` (20_memory R65). -/
def dstRegion (j : Job) : AddrRange :=
  { lo := j.dst.toNat, hi := j.dst.toNat + packedLen (jobDims j) }

/-- R262: `JOB.ow = 0` or `JOB.oh = 0`. -/
def hasInvalidDimensions (j : Job) : Bool := j.ow == 0#16 || j.oh == 0#16

/-- R263: `W = 0` or `H = 0`. -/
def hasTargetDimZero (j : Job) : Bool := (jobDims j).1 == 0 || (jobDims j).2 == 0

/-- R264: a region would end beyond 2^32; ending exactly at 2^32 is allowed. -/
def hasAddrRange (j : Job) : Bool :=
  decide ((srcRegion j).hi > addressSpace) || decide ((dstRegion j).hi > addressSpace)

/-- R265: the half-open regions share a byte. -/
def hasOverlap (j : Job) : Bool :=
  decide ((srcRegion j).lo < (dstRegion j).hi) && decide ((dstRegion j).lo < (srcRegion j).hi)

/-- The first check a job fails, in the order of R267; none where it passes all four. No check reads memory. -/
def checkJob (j : Job) : Option ErrCode :=
  if hasInvalidDimensions j then some .invalidDimensions
  else if hasTargetDimZero j then some .targetDimZero
  else if hasAddrRange j then some .addrRange
  else if hasOverlap j then some .overlap
  else none

/-- An address of SRC_REGION or DST_REGION; the regions are 'defined only for a job that passed the checks' (R65). -/
def inRegions (j : Job) (a : Nat) : Bool :=
  (checkJob j).isNone && (AddrRange.has (srcRegion j) a || AddrRange.has (dstRegion j) a)

/-- An address of DST_REGION, for a job that passed the checks (R65). -/
def inDstRegion (j : Job) (a : Nat) : Bool := (checkJob j).isNone && AddrRange.has (dstRegion j) a

/-- Duty 1 of 70 R311 for a job that passed the checks: neither region lies on memory with side effects (R71). -/
def regionsNormal (c : Config) (j : Job) : Bool :=
  (checkJob j).isSome || !(deviceIn c (srcRegion j) || deviceIn c (dstRegion j))

end Sys2Proof.Machine
end

