-- ==== Sys2Proof/Machine/Ops.lean ====
section
/-! DEFINITION. The named operations over memory and registers: byte reads and writes of system memory (spec/20_memory.md
R60, R63), the register writes, job start (40 R125), publishing a result (44 R240), error entry (60 R270), the
acknowledge that is the return from it (60 R271), and the reset event (70 R300). -/

namespace Sys2Proof.Machine

/-- The outcome type of every meaning and of the step. -/
abbrev Result := Host.Outcome State Fault Refusal

/-- What a byte that nothing has written reads as. DESIGN CHOICE 0 (unsafe): power-on contents are the platform's
(70 R303). Log 8. -/
def Memory.unlisted : Byte := 0#8

/-- `Mem[a]` (00_scope R9). -/
def Memory.read : Memory → Nat → Byte
  | [], _ => Memory.unlisted
  | c :: m, a => if c.1 = a then c.2 else Memory.read m a

/-- Put a cell before the first cell of a higher address. -/
def Memory.place : Memory → Nat → Byte → Memory
  | [], a, v => [(a, v)]
  | c :: m, a, v => if a < c.1 then (a, v) :: c :: m else c :: Memory.place m a v

/-- Take every cell of an address away. -/
def Memory.erase : Memory → Nat → Memory
  | [], _ => []
  | c :: m, a => if c.1 = a then Memory.erase m a else c :: Memory.erase m a

/-- `Mem[a] <- v` (00_scope R9), in canonical form: a byte equal to what an unlisted address reads as has no cell. -/
def Memory.write (m : Memory) (a : Nat) (v : Byte) : Memory :=
  if v = Memory.unlisted then Memory.erase m a else Memory.place (Memory.erase m a) a v

/-- `for k: Mem[a + k] <- vs[k]`, one byte at a time (43 R211, 44 R240). -/
def Memory.writeRun : Memory → Nat → List Byte → Memory
  | m, _, [] => m
  | m, a, v :: vs => Memory.writeRun (Memory.write m a v) (a + 1) vs

/-- Canonical from `lo` on: addresses strictly rising from `lo`, all below 2^32, no cell equal to the unlisted byte. -/
def Memory.wfFrom : Nat → Memory → Bool
  | _, [] => true
  | lo, c :: m =>
    decide (lo ≤ c.1) && decide (c.1 < addressSpace) && decide (c.2 ≠ Memory.unlisted) && Memory.wfFrom (c.1 + 1) m

/-- The canonical form of memory (20_memory R60). -/
def Memory.wf (m : Memory) : Bool := Memory.wfFrom 0 m

/-- `n` free bytes, drawn at `d` on (60 R269, 70 R300). Log 11. -/
def freeRun (d n : Nat) : List Byte := (List.range n).map (fun k => Config.freeByte (d + k))

/-- RDATA of a read transaction (30_encoding R90). -/
def respond (v : Word) (s : State) : State := { s with rdata := v }

/-- The CTRL field update shared by every CTRL write (40 R123). -/
def setCtrl (filter irqEn : Bool) (s : State) : State := { s with filter := filter, irqEn := irqEn }

/-- `CSR[SRC_ADDR] <- v` (40 R131). -/
def setSrcAddr (v : Word) (s : State) : State := { s with srcAddr := v }

/-- `CSR[SRC_SIZE] <- (w, h)` (40 R133). -/
def setSrcSize (w h : Half) (s : State) : State := { s with srcW := w, srcH := h }

/-- `CSR[MAX_DIM].M <- m` (40 R135). -/
def setMaxDim (m : Half) (s : State) : State := { s with maxDim := m }

/-- `CSR[DST_ADDR] <- v` (40 R137). -/
def setDstAddr (v : Word) (s : State) : State := { s with dstAddr := v }

/-- The configuration that a START copies into JOB (10_state R42, 40 R125). -/
def latchedJob (s : State) : Job :=
  { src := s.srcAddr, ow := s.srcW, oh := s.srcH, maxDim := s.maxDim, dst := s.dstAddr, filter := s.filter }

/-- Job start (40 R125), run after the CTRL field update in the same atomic step: in IDLE it latches JOB, clears DONE, ERR,
ERRCODE and the results, and sets BUSY; in BUSY 'nothing further'. -/
def startJob (s : State) : State :=
  match s.phase with
  | .idle =>
    { s with job := latchedJob s, done := false, err := false, errcode := 0#4,
             outW := 0#32, outH := 0#32, outLen := 0#32, phase := .busy }
  | .busy => s

/-- The OK branch of the completion step (44 R240): the bytes, the result registers, DONE, and PHASE to IDLE. -/
def publish (w h : Nat) (bytes : List Byte) (s : State) : State :=
  { s with mem := Memory.writeRun s.mem s.job.dst.toNat bytes,
           outW := BitVec.ofNat 32 w, outH := BitVec.ofNat 32 h, outLen := BitVec.ofNat 32 bytes.length,
           done := true, phase := .idle }

/-- `for every a in DST_REGION: Mem[a] <- any value`, for a job that passed its checks (60 R269, R270, 70 R300). -/
def scrambleDst (s : State) : State :=
  match checkJob s.job with
  | none =>
    let n := packedLen (jobDims s.job)
    { s with mem := Memory.writeRun s.mem s.job.dst.toNat (freeRun s.draws n), draws := s.draws + n }
  | some _ => s

/-- Error entry, the block's trap entry (60 R270): ERR and ERRCODE are set and PHASE goes to IDLE; DONE and OUT_* stay as
they are; after BUS_ERROR the bytes of DST_REGION hold any value. Nothing is saved and control goes nowhere. -/
def errorEntry (c : ErrCode) (s : State) : State :=
  let t := if c = .busError then scrambleDst s else s
  { t with err := true, errcode := ErrCode.code c, phase := .idle }

/-- The acknowledge, the block's return (60 R271, 40 R129): W1C of DONE and ERR; ERRCODE and BUSY are not changed. -/
def acknowledge (clearDone clearErr : Bool) (s : State) : State :=
  { s with done := w1c s.done clearDone, err := w1c s.err clearErr }

/-- `JOB <- unspecified`, free values drawn at `d` (70 R300). Log 12. -/
def freeJob (d : Nat) : Job :=
  { src := Config.freeWord d, ow := Config.freeHalf d, oh := Config.freeHalf (d + 1), maxDim := Config.freeHalf (d + 2),
    dst := Config.freeWord (d + 1), filter := Config.freeChoice d }

/-- The reset event (70 R300): every register to its reset value, JOB unspecified, and a job that was BUSY aborted with its
DST_REGION holding any value. Parameters and all other memory are unchanged (R303). Log 19. -/
def resetBlock (s : State) : State :=
  let t := if s.phase = .busy then scrambleDst s else s
  { State.reset with job := freeJob t.draws, mem := t.mem, rdata := t.rdata, hostByte := t.hostByte,
                     events := t.events, draws := t.draws + 3, config := t.config }

end Sys2Proof.Machine
end

