-- ==== Sys2Proof/Machine/Control.lean ====
section
/-! DEFINITION. The CTRL transactions and the job start (spec/40_host_commands.md section 2). -/

namespace Sys2Proof.Machine

/-- RD_CTRL (R122): IRQ_EN and FILTER; START always reads 0. -/
def execRdCtrl (s : State) : Result := .next (respond (readReg .ctrl s) s)

/-- The CTRL field update from WDATA, in every PHASE (R123). -/
def ctrlUpdate (wdata : Word) (s : State) : State := setCtrl (wdataFilter wdata) (wdataIrqEn wdata) s

/-- WR_CTRL (R124): the field update 'and nothing else'. -/
def execWrCtrl (wdata : Word) (s : State) : Result := .next (ctrlUpdate wdata s)

/-- START_NEAREST (R126): the field update, then the job start. Log 22 on ill-formed operands. -/
def execStartNearest (wdata : Word) (s : State) : Result := .next (startJob (ctrlUpdate wdata s))

/-- START_BILINEAR (R127): the field update, then the job start. -/
def execStartBilinear (wdata : Word) (s : State) : Result := .next (startJob (ctrlUpdate wdata s))

end Sys2Proof.Machine
end

