-- ==== Sys2Proof/Machine/Identity.lean ====
section
/-! DEFINITION. The ID transactions (spec/40_host_commands.md section 1). -/

namespace Sys2Proof.Machine

/-- RD_ID (R120): RDATA is the hardwired identity, in every state. -/
def execRdId (s : State) : Result := .next (respond (readReg .id s) s)

/-- WR_ID (R121): no state changes. -/
def execWrId (_wdata : Word) (s : State) : Result := .next s


end Sys2Proof.Machine
end

