-- ==== Sys2Proof/Machine/Reserved.lean ====
section
/-! DEFINITION. The reserved offsets (spec/40_host_commands.md section 6, 30_encoding R96). -/

namespace Sys2Proof.Machine

/-- RD_RSV (R144): RDATA is 0, whatever any register holds. -/
def execRdRsv (_off : Byte) (s : State) : Result := .next (respond reservedWord s)

/-- WR_RSV (R145): no state changes. -/
def execWrRsv (_off : Byte) (_wdata : Word) (s : State) : Result := .next s


end Sys2Proof.Machine
end

