-- ==== Sys2Proof/Machine/Results.lean ====
section
/-! DEFINITION. The result registers (spec/40_host_commands.md section 5): reads, and writes that are ignored. -/

namespace Sys2Proof.Machine

/-- RD_OUT_W (R138). -/
def execRdOutW (s : State) : Result := .next (respond (readReg .outW s) s)

/-- WR_OUT_W (R139): no state changes. -/
def execWrOutW (_wdata : Word) (s : State) : Result := .next s

/-- RD_OUT_H (R140). -/
def execRdOutH (s : State) : Result := .next (respond (readReg .outH s) s)

/-- WR_OUT_H (R141): no state changes. -/
def execWrOutH (_wdata : Word) (s : State) : Result := .next s

/-- RD_OUT_LEN (R142). -/
def execRdOutLen (s : State) : Result := .next (respond (readReg .outLen s) s)

/-- WR_OUT_LEN (R143): no state changes. -/
def execWrOutLen (_wdata : Word) (s : State) : Result := .next s


end Sys2Proof.Machine
end

