-- ==== Sys2Proof/Machine/Setup.lean ====
section
/-! DEFINITION. The source and destination configuration (spec/40_host_commands.md section 4). A write during BUSY changes the live
register only (10_state R42). -/

namespace Sys2Proof.Machine

/-- RD_SRC_ADDR (R130): the live register. -/
def execRdSrcAddr (s : State) : Result := .next (respond (readReg .srcAddr s) s)

/-- WR_SRC_ADDR (R131): every value is accepted. -/
def execWrSrcAddr (wdata : Word) (s : State) : Result := .next (setSrcAddr wdata s)

/-- RD_SRC_SIZE (R132). -/
def execRdSrcSize (s : State) : Result := .next (respond (readReg .srcSize s) s)

/-- WR_SRC_SIZE (R133): 0 in either half is accepted here. -/
def execWrSrcSize (wdata : Word) (s : State) : Result := .next (setSrcSize (wdataSrcW wdata) (wdataSrcH wdata) s)

/-- RD_MAX_DIM (R134). -/
def execRdMaxDim (s : State) : Result := .next (respond (readReg .maxDim s) s)

/-- WR_MAX_DIM (R135): WDATA[31:16] is ignored; 0 and 1 are not special-cased. -/
def execWrMaxDim (wdata : Word) (s : State) : Result := .next (setMaxDim (wdataMaxDim wdata) s)

/-- RD_DST_ADDR (R136): the live register. -/
def execRdDstAddr (s : State) : Result := .next (respond (readReg .dstAddr s) s)

/-- WR_DST_ADDR (R137): every value is accepted. -/
def execWrDstAddr (wdata : Word) (s : State) : Result := .next (setDstAddr wdata s)


end Sys2Proof.Machine
end

