-- ==== Sys2Proof/Machine/StatusCommands.lean ====
section
/-! DEFINITION. The STATUS transactions (spec/40_host_commands.md section 3). -/

namespace Sys2Proof.Machine

/-- RD_STATUS (R128): a read clears nothing. -/
def execRdStatus (s : State) : Result := .next (respond (readReg .status s) s)

/-- WR_STATUS (R129): clears DONE where WDATA[1] = 1 and ERR where WDATA[2] = 1. -/
def execWrStatus (wdata : Word) (s : State) : Result :=
  .next (acknowledge (wdataClearDone wdata) (wdataClearErr wdata) s)


end Sys2Proof.Machine
end

