-- ==== Sys2Proof/Machine/Dispatch.lean ====
section
/-! DEFINITION. One arm per transaction kind, each a direct call of its meaning. -/

namespace Sys2Proof.Machine

def exec (i : Instr) (s : State) : Host.Outcome State Fault Refusal :=
  match i with
  | .rdId => Sys2Proof.Machine.execRdId s
  | .wrId wdata => Sys2Proof.Machine.execWrId wdata s
  | .rdCtrl => Sys2Proof.Machine.execRdCtrl s
  | .wrCtrl wdata => Sys2Proof.Machine.execWrCtrl wdata s
  | .startNearest wdata => Sys2Proof.Machine.execStartNearest wdata s
  | .startBilinear wdata => Sys2Proof.Machine.execStartBilinear wdata s
  | .rdStatus => Sys2Proof.Machine.execRdStatus s
  | .wrStatus wdata => Sys2Proof.Machine.execWrStatus wdata s
  | .rdSrcAddr => Sys2Proof.Machine.execRdSrcAddr s
  | .wrSrcAddr wdata => Sys2Proof.Machine.execWrSrcAddr wdata s
  | .rdSrcSize => Sys2Proof.Machine.execRdSrcSize s
  | .wrSrcSize wdata => Sys2Proof.Machine.execWrSrcSize wdata s
  | .rdMaxDim => Sys2Proof.Machine.execRdMaxDim s
  | .wrMaxDim wdata => Sys2Proof.Machine.execWrMaxDim wdata s
  | .rdDstAddr => Sys2Proof.Machine.execRdDstAddr s
  | .wrDstAddr wdata => Sys2Proof.Machine.execWrDstAddr wdata s
  | .rdOutW => Sys2Proof.Machine.execRdOutW s
  | .wrOutW wdata => Sys2Proof.Machine.execWrOutW wdata s
  | .rdOutH => Sys2Proof.Machine.execRdOutH s
  | .wrOutH wdata => Sys2Proof.Machine.execWrOutH wdata s
  | .rdOutLen => Sys2Proof.Machine.execRdOutLen s
  | .wrOutLen wdata => Sys2Proof.Machine.execWrOutLen wdata s
  | .rdRsv off => Sys2Proof.Machine.execRdRsv off s
  | .wrRsv off wdata => Sys2Proof.Machine.execWrRsv off wdata s

end Sys2Proof.Machine
end

