-- ==== Sys2Proof/Machine/Packer.lean ====
section
/-! DEFINITION. The Packer (spec/43_packer.md): two intensities a byte, the even-indexed one in the high nibble. -/

namespace Sys2Proof.Machine

/-- `B[k] = (I[2k] << 4) | I[2k + 1]` (R210). -/
def packByte (hi lo : Nibble) : Byte := hi ++ lo

/-- The ByteArray of `len` bytes of an IntensityGrid in row-major order (R211). -/
def packBytes (len : Nat) (intensity : Nat → Nibble) : List Byte :=
  (List.range len).map (fun k => packByte (intensity (2 * k)) (intensity (2 * k + 1)))

/-- `I[2k] = B[k][7:4]` (R214). -/
def highNibble (b : Byte) : Nibble := b.extractLsb' 4 4

/-- `I[2k+1] = B[k][3:0]` (R214). -/
def lowNibble (b : Byte) : Nibble := b.extractLsb' 0 4

end Sys2Proof.Machine
end

