-- ==== Sys2Proof/Machine/Resizer.lean ====
section
/-! DEFINITION. Resampling (spec/41_resizer.md R169 to R174): the two filters, each exact in integers, and the source
pixels each output pixel depends on. -/

namespace Sys2Proof.Machine

/-- An RGBA sample of 8-bit channels (00_scope glossary, 44 R234). -/
structure Pixel where
  r : Byte
  g : Byte
  b : Byte
  a : Byte
  deriving DecidableEq, Repr

/-- The address of channel `c` of source pixel `(sx, sy)`: `JOB.src + 4*(sy*ow + sx) + c` (20_memory R61, 41 R171). -/
def channelAddr (j : Job) (sx sy c : Nat) : Nat := j.src.toNat + 4 * (sy * j.ow.toNat + sx) + c

/-- SrcPixel, the source read (R171); the A byte is read and nothing depends on it (log 23). -/
def srcPixel (j : Job) (m : Memory) (sx sy : Nat) : Pixel :=
  { r := Memory.read m (channelAddr j sx sy 0), g := Memory.read m (channelAddr j sx sy 1),
    b := Memory.read m (channelAddr j sx sy 2), a := Memory.read m (channelAddr j sx sy 3) }

/-- `sx = ((2*x + 1) * ow) div (2*W)`, the source index nearest sampling takes, along one axis of `o` source and `n` output
pixels (R170). -/
def nearestIndex (o n x : Nat) : Nat := (2 * x + 1) * o / (2 * n)

/-- RESAMPLE_NEAREST (R170). -/
def resampleNearest (j : Job) (m : Memory) (w h x y : Nat) : Pixel :=
  srcPixel j m (nearestIndex j.ow.toNat w x) (nearestIndex j.oh.toNat h y)

/-- `clamp(v, lo, hi) = min(max(v, lo), hi)` (00_scope R6). -/
def clamp (v lo hi : Int) : Int := min (max v lo) hi

/-- `nx = clamp((2*x + 1)*ow - W, 0, 2*W*(ow - 1))`, on signed integers (R172). -/
def bilinearPos (o n x : Nat) : Nat := (clamp ((2 * x + 1) * o - n) 0 (2 * n * (o - 1))).toNat

/-- `x0 = nx div (2*W)` (R172). -/
def bilinearLow (o n x : Nat) : Nat := bilinearPos o n x / (2 * n)

/-- `ax = nx mod (2*W)`, the weight of `x1` in 2W-ths (R172). -/
def bilinearWeight (o n x : Nat) : Nat := bilinearPos o n x % (2 * n)

/-- `x1 = min(x0 + 1, ow - 1)` (R172). -/
def bilinearHigh (o n x : Nat) : Nat := min (bilinearLow o n x + 1) (o - 1)

/-- `S`, the weighted sum of one channel of the four corners (R172). -/
def bilinearSum (w h ax ay p00 p10 p01 p11 : Nat) : Nat :=
  (2 * w - ax) * (2 * h - ay) * p00 + ax * (2 * h - ay) * p10 + (2 * w - ax) * ay * p01 + ax * ay * p11

/-- `Q(x, y).c = rhu(S, 4*W*H)`, in 0..255 (R172, R173 d). -/
def mixChannel (w h ax ay : Nat) (p00 p10 p01 p11 : Byte) : Byte :=
  BitVec.ofNat 8 (rhu (bilinearSum w h ax ay p00.toNat p10.toNat p01.toNat p11.toNat) (4 * w * h))

/-- The four corner pixels mixed channel by channel (R172). -/
def mixPixel (w h ax ay : Nat) (p00 p10 p01 p11 : Pixel) : Pixel :=
  { r := mixChannel w h ax ay p00.r p10.r p01.r p11.r, g := mixChannel w h ax ay p00.g p10.g p01.g p11.g,
    b := mixChannel w h ax ay p00.b p10.b p01.b p11.b, a := mixChannel w h ax ay p00.a p10.a p01.a p11.a }

/-- RESAMPLE_BILINEAR (R172). -/
def resampleBilinear (j : Job) (m : Memory) (w h x y : Nat) : Pixel :=
  let x0 := bilinearLow j.ow.toNat w x
  let x1 := bilinearHigh j.ow.toNat w x
  let y0 := bilinearLow j.oh.toNat h y
  let y1 := bilinearHigh j.oh.toNat h y
  mixPixel w h (bilinearWeight j.ow.toNat w x) (bilinearWeight j.oh.toNat h y)
    (srcPixel j m x0 y0) (srcPixel j m x1 y0) (srcPixel j m x0 y1) (srcPixel j m x1 y1)

/-- `Q(x, y)` by the job's filter: 0 nearest, 1 bilinear (R169). -/
def resample (j : Job) (m : Memory) (w h x y : Nat) : Pixel :=
  if j.filter then resampleBilinear j m w h x y else resampleNearest j m w h x y

/-- The source pixels that output pixel `(x, y)` depends on: one for nearest, the four corners for bilinear (20_memory R67,
41 R174). -/
def neededPixels (j : Job) (w h x y : Nat) : List (Nat × Nat) :=
  if j.filter then
    let x0 := bilinearLow j.ow.toNat w x
    let x1 := bilinearHigh j.ow.toNat w x
    let y0 := bilinearLow j.oh.toNat h y
    let y1 := bilinearHigh j.oh.toNat h y
    [(x0, y0), (x1, y0), (x0, y1), (x1, y1)]
  else [(nearestIndex j.ow.toNat w x, nearestIndex j.oh.toNat h y)]

/-- NEED, the bytes at channels 0, 1 and 2 of every needed pixel (20_memory R67). -/
def neededAddrs (j : Job) (w h : Nat) : List Nat :=
  (List.range (w * h)).flatMap fun i =>
    (neededPixels j w h (i % w) (i / w)).flatMap fun p =>
      [channelAddr j p.1 p.2 0, channelAddr j p.1 p.2 1, channelAddr j p.1 p.2 2]

end Sys2Proof.Machine
end

