-- ==== Sys2Proof/Machine/Quantizer.lean ====
section
/-! DEFINITION. The Quantizer (spec/42_quantizer.md): luma in the block's exact arithmetic (R191) and in binary64 (R192),
4-bit quantization (R193), and both in that order (R194, R195). Alpha is never read (R190). -/

namespace Sys2Proof.Machine

/-- LUMA with `LUMA_ARITH = EXACT`: `rhu(299*r + 587*g + 114*b, 1000)` (R191). -/
def lumaExact (r g b : Nat) : Nat := rhu (299 * r + 587 * g + 114 * b) 1000

/-- Binary64 numbers below are integers in units of 2^-56. `c1`, the binary64 nearest to 0.299: 5386305154335113 * 2^-54
(R192; DEDUCED, log 6). -/
def coeffR : Nat := 5386305154335113 * 2 ^ 2

/-- `c2`, the binary64 nearest to 0.587: 5287225962532962 * 2^-53 (R192). -/
def coeffG : Nat := 5287225962532962 * 2 ^ 3

/-- `c3`, the binary64 nearest to 0.114: 8214565720323785 * 2^-56 (R192). -/
def coeffB : Nat := 8214565720323785

/-- `fl`: round to 53 significant bits, ties to even (R192). -/
def fl64 (n : Nat) : Nat :=
  if n < 2 ^ 53 then n
  else
    let unit := 2 ^ (n.log2 - 52)
    let q := n / unit
    let rem := n % unit
    if 2 * rem > unit ∨ (2 * rem = unit ∧ q % 2 = 1) then (q + 1) * unit else q * unit

/-- `f`, evaluated left to right (R192). -/
def lumaSum64 (r g b : Nat) : Nat := fl64 (fl64 (fl64 (coeffR * r) + fl64 (coeffG * g)) + fl64 (coeffB * b))

/-- LUMA with `LUMA_ARITH = BINARY64`: `floor(f)`, plus 1 where the fraction is at least 1/2 (R192). -/
def lumaBinary64 (r g b : Nat) : Nat :=
  let f := lumaSum64 r g b
  f / 2 ^ 56 + (if 2 * (f % 2 ^ 56) ≥ 2 ^ 56 then 1 else 0)

/-- LUMA in the configured arithmetic (00_scope R4). -/
def luma (arith : LumaArith) (r g b : Nat) : Nat :=
  match arith with
  | .decimal => lumaExact r g b
  | .binary64 => lumaBinary64 r g b

/-- QUANT4: `rhu(15*gray, 255)` (R193). -/
def quant4 (gray : Nat) : Nat := rhu (15 * gray) 255

/-- QUANTIZE, one pixel to its intensity: luma first, rounded to an integer, then QUANT4 (R194, R195). -/
def quantize (arith : LumaArith) (p : Pixel) : Nibble :=
  BitVec.ofNat 4 (quant4 (luma arith p.r.toNat p.g.toNat p.b.toNat))

end Sys2Proof.Machine
end

