-- ==== Sys2Proof/Machine/Engine.lean ====
section
/-! DEFINITION. The engine: RunJob (spec/44_job_sequence.md R231), bus errors (60 R266), and the completion step
(R240), the engine's one step. -/

namespace Sys2Proof.Machine

/-- `I[i]`, the intensity of output pixel `i = y*W + x` (42 R195): resampled, then quantized (44 R233). -/
def jobIntensity (arith : LumaArith) (j : Job) (m : Memory) (w h i : Nat) : Nibble :=
  quantize arith (resample j m w h (i % w) (i / w))

/-- `B`, the ByteArray of a job of target `(w, h)` (43 R211). -/
def jobBytes (arith : LumaArith) (j : Job) (m : Memory) (w h : Nat) : List Byte :=
  packBytes (packedLen (w, h)) (jobIntensity arith j m w h)

/-- What the bus says of a job's accesses (60 R266). -/
inductive BusVerdict where
  /-- a byte the job must read or write answers with an error -/
  | fails
  /-- only a byte the job may or may not read answers with an error -/
  | mayFail
  /-- every byte of both regions answers -/
  | clean
  deriving DecidableEq, Repr

/-- R266: a bad byte in `NEED ∪ DST_REGION` fails the job; a bad byte elsewhere in SRC_REGION may or may not (where the first
test is false, no bad byte of SRC_REGION is in NEED). -/
def busVerdict (c : Config) (j : Job) : BusVerdict :=
  let d := jobDims j
  if (neededAddrs j d.1 d.2).any (fun a => !memOK c a) || badByteIn c (dstRegion j) then .fails
  else if badByteIn c (srcRegion j) then .mayFail
  else .clean

/-- The outcome of RunJob: `OK(W, H, LEN)` with the bytes of LEN, or `ERR(c)` (R232). -/
inductive JobOutcome where
  | ok (w h : Nat) (bytes : List Byte)
  | err (c : ErrCode)
  deriving DecidableEq, Repr

/-- RunJob (R231): the checks, then the pixel work, then BUS_ERROR where an access got an error response. `choice` says
whether a bad byte outside NEED was read (R266). -/
def runJob (c : Config) (j : Job) (m : Memory) (choice : Bool) : JobOutcome :=
  match checkJob j with
  | some e => .err e
  | none =>
    let d := jobDims j
    let ok := JobOutcome.ok d.1 d.2 (jobBytes c.lumaArith j m d.1 d.2)
    match busVerdict c j with
    | .fails => .err .busError
    | .mayFail => if choice then .err .busError else ok
    | .clean => ok

/-- Publish an outcome (R240). -/
def finishJob (o : JobOutcome) (s : State) : State :=
  match o with
  | .ok w h bytes => publish w h bytes s
  | .err e => errorEntry e s

/-- The free choice of this completion step is spent. Log 14. -/
def spendChoice (s : State) : State := { s with draws := s.draws + 1 }

/-- The completion step (R240), for a state with PHASE = BUSY; a job on memory with side effects is refused (20_memory
R71). -/
def completionStep (s : State) : Result :=
  if regionsNormal s.config s.job then
    .next (finishJob (runJob s.config s.job s.mem (Config.freeChoice s.draws)) (spendChoice s))
  else .refused .regionNotNormalMemory

/-- The engine's turn: the completion step 'is enabled only while PHASE = BUSY' (R240); in IDLE the engine does
nothing. -/
def engineTurn (s : State) : Result :=
  match s.phase with
  | .busy => completionStep s
  | .idle => .next s

end Sys2Proof.Machine
end

