-- ==== Sys2Proof/Machine/Environment.lean ====
section
/-! DEFINITION. What the platform and the host do beside register transactions: reset (spec/70_reset_and_hazards.md R300)
and the host's own accesses to system memory (20_memory R60, R74, R79). -/

namespace Sys2Proof.Machine

/-- The reset event (70 R300). A job on memory with side effects has no defined result, and a reset that aborts it is
refused like its completion (20_memory R71). -/
def resetTurn (s : State) : Result :=
  if s.phase = .busy ∧ regionsNormal s.config s.job = false then .refused .regionNotNormalMemory
  else .next (resetBlock s)

/-- The host writes a byte of system memory by its own means (20_memory R60). While BUSY no agent but the engine writes
a byte of either region: 'a model has no step for such a write' (R79). DESIGN CHOICE: where `MemOK` is false the write
takes place as anywhere else; the spec gives `MemOK` an effect on a job's accesses only (60 R266). Log 26. -/
def hostWriteTurn (a : Nat) (v : Byte) (s : State) : Result :=
  if a ≥ addressSpace then .fault .noSuchAddress
  else if isDevice s.config a then .refused .deviceAccess
  else if s.phase = .busy ∧ inRegions s.job a = true then .refused .regionWrittenWhileBusy
  else .next { s with mem := Memory.write s.mem a v }

/-- The host reads a byte of system memory by its own means. While BUSY 'a host read of DST_REGION returns any byte
value (a draw)' (20_memory R74 item 4); log 15. DESIGN CHOICE: where `MemOK` is false the read answers as anywhere else.
Log 26. -/
def hostReadTurn (a : Nat) (s : State) : Result :=
  if a ≥ addressSpace then .fault .noSuchAddress
  else if isDevice s.config a then .refused .deviceAccess
  else if s.phase = .busy ∧ inDstRegion s.job a = true then
    .next { s with hostByte := Config.freeByte s.draws, draws := s.draws + 1 }
  else .next { s with hostByte := Memory.read s.mem a }

end Sys2Proof.Machine
end

