-- ==== Sys2Proof/Machine/Step.lean ====
section
/-! DEFINITION. One atomic step of the block with its host and platform (spec/40_host_commands.md R146): the next event
takes place; with no event left, the engine has its turn, so a running job ends (44 R239) and an idle block does
nothing (70 R302). -/

namespace Sys2Proof.Machine

/-- The state with its next event taken off the list. -/
def dropEvent (s : State) : State := { s with events := s.events.tail }

/-- One event (40 R146, 44 R240, 70 R300, 20_memory R60). -/
def runEvent (e : Event) (s : State) : Host.Outcome State Fault Refusal :=
  match e with
  | .transaction t => exec (decode t) s
  | .engine => engineTurn s
  | .reset => resetTurn s
  | .hostWrite a v => hostWriteTurn a v s
  | .hostRead a => hostReadTurn a s

/-- One atomic step (40 R146). -/
def step (s : State) : Host.Outcome State Fault Refusal :=
  match s.events with
  | [] => engineTurn s
  | e :: _ => runEvent e (dropEvent s)

/-- The state with one transaction more, which the host issues before anything else happens: nothing else is changed.
A number that is no 41-bit word is no transaction and leaves the state as it is. Logs 1 and 21. -/
def State.withFetchWord (s : State) (nbits w : Nat) : State :=
  match tableWord nbits w with
  | some t => { s with events := .transaction t :: s.events }
  | none => s

end Sys2Proof.Machine
end

