-- ==== Sys2Proof/WellFormed.lean ====
section
/-! DEFINITION. The transactions that some word decodes to (spec/30_encoding.md R93, R94): a CTRL write carries the START
and FILTER bits its kind names, and a reserved transaction an offset that is none of the ten. -/

namespace Sys2Proof

/-- Well-formed: the operands are ones the encoding of the kind admits (R93). -/
def Instr.wf : Instr → Bool
  | .rdId => true
  | .wrId _ => true
  | .rdCtrl => true
  | .wrCtrl wdata => !wdata.getLsbD 0
  | .startNearest wdata => wdata.getLsbD 0 && !wdata.getLsbD 1
  | .startBilinear wdata => wdata.getLsbD 0 && wdata.getLsbD 1
  | .rdStatus => true
  | .wrStatus _ => true
  | .rdSrcAddr => true
  | .wrSrcAddr _ => true
  | .rdSrcSize => true
  | .wrSrcSize _ => true
  | .rdMaxDim => true
  | .wrMaxDim _ => true
  | .rdDstAddr => true
  | .wrDstAddr _ => true
  | .rdOutW => true
  | .wrOutW _ => true
  | .rdOutH => true
  | .wrOutH _ => true
  | .rdOutLen => true
  | .wrOutLen _ => true
  | .rdRsv off => (regAt off).isNone
  | .wrRsv off _ => (regAt off).isNone

end Sys2Proof
end

