-- ==== Sys2Proof/Safety.lean ====
section
/-! DEFINITION. What counts as a safe state and a safe run, in the terms the statements use: the register invariants of
spec/10_state.md R32, R39 to R41 and R45, the canonical form of memory, and what a step may not touch. -/

namespace Sys2Proof.Machine

/-- An outcome is a next state: the machine goes on. -/
def GoesOn (o : Host.Outcome State Fault Refusal) : Prop := ∃ t, o = .next t

/-- The flags of a legal state: 'BUSY = 1 implies DONE = 0 and ERR = 0. DONE and ERR are never both 1' (R45); ERRCODE
is 0 to 5 (R32), is 0 while BUSY and with DONE, and is not 0 with ERR (60 R272: they describe the most recent job). -/
def FlagsLegal (s : State) : Prop :=
  (s.phase = .busy → s.done = false ∧ s.err = false ∧ s.errcode = 0#4) ∧
  ¬(s.done = true ∧ s.err = true) ∧
  s.errcode.toNat ≤ 5 ∧
  (s.err = true → s.errcode ≠ 0#4) ∧
  (s.done = true → s.errcode = 0#4)

/-- The result registers of a legal state: all 0, as START, a failed job and reset leave them; or those of a successful
job: W even in 2..65534, H in 1..131070, LEN = W*H/2, the block IDLE and no error (R39 to R41, R45, 41 R166). -/
def ResultsLegal (s : State) : Prop :=
  (s.outW = 0#32 ∧ s.outH = 0#32 ∧ s.outLen = 0#32) ∨
  (s.phase = .idle ∧ s.err = false ∧ s.errcode = 0#4 ∧
    s.outW.toNat % 2 = 0 ∧ 2 ≤ s.outW.toNat ∧ s.outW.toNat ≤ 65534 ∧
    1 ≤ s.outH.toNat ∧ s.outH.toNat ≤ 131070 ∧
    2 * s.outLen.toNat = s.outW.toNat * s.outH.toNat)

/-- The register invariant of the block: every reachable state meets it (R45). -/
def RegsLegal (s : State) : Prop := FlagsLegal s ∧ ResultsLegal s

/-- Memory is in canonical form (20_memory R60). -/
def MemLegal (s : State) : Prop := Memory.wf s.mem = true

/-- Every byte outside `[lo, hi)` reads the same. -/
def SameOutside (lo hi : Nat) (m m' : Memory) : Prop :=
  ∀ a, ¬(lo ≤ a ∧ a < hi) → Memory.read m' a = Memory.read m a

/-- Every byte reads the same. -/
def SameBytes (m m' : Memory) : Prop := ∀ a, Memory.read m' a = Memory.read m a

/-- Two memories hold the same R, G and B bytes for every source pixel of a job; the A bytes and every byte outside
SRC_REGION may differ (20_memory R67, 42 R190). -/
def SameColours (j : Job) (m m' : Memory) : Prop :=
  ∀ sx sy c, sx < j.ow.toNat → sy < j.oh.toNat → c < 3 →
    Memory.read m' (channelAddr j sx sy c) = Memory.read m (channelAddr j sx sy c)

/-- The configuration registers and CTRL fields of two states agree (10_state R26, R27, R34 to R38). -/
def SameSetup (s t : State) : Prop :=
  t.filter = s.filter ∧ t.irqEn = s.irqEn ∧ t.srcAddr = s.srcAddr ∧ t.srcW = s.srcW ∧ t.srcH = s.srcH ∧
  t.maxDim = s.maxDim ∧ t.dstAddr = s.dstAddr

/-- What is not the block's own is unchanged: the host's last responses, what happens next, and the parameters. -/
def SameSurroundings (s t : State) : Prop :=
  t.rdata = s.rdata ∧ t.hostByte = s.hostByte ∧ t.events = s.events ∧ t.config = s.config

/-- An event that is a register transaction. -/
def Event.isTransaction : Event → Bool
  | .transaction _ => true
  | .engine => false
  | .reset => false
  | .hostWrite _ _ => false
  | .hostRead _ => false

end Sys2Proof.Machine

namespace Sys2Proof

/-- A transaction that writes a configuration register or CTRL without START (70 R322). -/
def Instr.isSetup : Instr → Bool
  | .rdId => false
  | .wrId _ => false
  | .rdCtrl => false
  | .wrCtrl _ => true
  | .startNearest _ => false
  | .startBilinear _ => false
  | .rdStatus => false
  | .wrStatus _ => false
  | .rdSrcAddr => false
  | .wrSrcAddr _ => true
  | .rdSrcSize => false
  | .wrSrcSize _ => true
  | .rdMaxDim => false
  | .wrMaxDim _ => true
  | .rdDstAddr => false
  | .wrDstAddr _ => true
  | .rdOutW => false
  | .wrOutW _ => false
  | .rdOutH => false
  | .wrOutH _ => false
  | .rdOutLen => false
  | .wrOutLen _ => false
  | .rdRsv _ => false
  | .wrRsv _ _ => false

/-- A transaction that requests a job start (40 R126, R127). -/
def Instr.isStart : Instr → Bool
  | .rdId => false
  | .wrId _ => false
  | .rdCtrl => false
  | .wrCtrl _ => false
  | .startNearest _ => true
  | .startBilinear _ => true
  | .rdStatus => false
  | .wrStatus _ => false
  | .rdSrcAddr => false
  | .wrSrcAddr _ => false
  | .rdSrcSize => false
  | .wrSrcSize _ => false
  | .rdMaxDim => false
  | .wrMaxDim _ => false
  | .rdDstAddr => false
  | .wrDstAddr _ => false
  | .rdOutW => false
  | .wrOutW _ => false
  | .rdOutH => false
  | .wrOutH _ => false
  | .rdOutLen => false
  | .wrOutLen _ => false
  | .rdRsv _ => false
  | .wrRsv _ _ => false

end Sys2Proof
end

