-- ==== Sys2Proof/Certificates/Slice0/Obligations.lean ====
section
/-! DEFINITION. The statements for the provers, each taken from the numbered rules of spec/ that its docstring cites. -/

open Sys2Proof Sys2Proof.Machine

/-- The words of the pseudo-operations (30_encoding R99) and of the vectors H2, H7, H10 to H12 (95_test_vectors), each
decoded. -/
def Obligations.WrittenOutWordsDecode : Prop :=
  decode 0x10400000001#41 = .startNearest 0x1#32 ∧
  decode 0x10400000005#41 = .startNearest 0x5#32 ∧
  decode 0x10400000003#41 = .startBilinear 0x3#32 ∧
  decode 0x10400000007#41 = .startBilinear 0x7#32 ∧
  decode 0x104FFFFFFFF#41 = .startBilinear 0xFFFFFFFF#32 ∧
  decode 0x104FFFFFFF8#41 = .wrCtrl 0xFFFFFFF8#32 ∧
  decode 0x10800000006#41 = .wrStatus 0x6#32 ∧
  decode 0x00800000000#41 = .rdStatus ∧
  decode 0x11000020004#41 = .wrSrcSize 0x00020004#32 ∧
  decode 0x10000000000#41 = .wrId 0x0#32 ∧
  decode 0x01C00000000#41 = .rdOutW ∧
  decode 0x02800000000#41 = .rdRsv 0x28#8 ∧
  decode 0x00500000000#41 = .rdRsv 0x05#8 ∧
  decode 0x1FCFFFFFFFF#41 = .wrRsv 0xFC#8 0xFFFFFFFF#32

/-- Decode of encode of a well-formed transaction is that transaction, for every operand (30_encoding R90, R93). -/
def Obligations.DecodeOfEncodeIsTheTransaction : Prop :=
  ∀ i : Instr, i.wf = true → decode (encode i) = i

/-- Every word decodes to a well-formed transaction, whose encoding is the word itself, but for the WDATA of a read, which
'is ignored, and encoders set it to 0' (30_encoding R90, R95). -/
def Obligations.EncodeOfDecodeIsTheWord : Prop :=
  ∀ t : TWord, (decode t).wf = true ∧
    encode (decode t) = if TWord.we t then t else t &&& 0x1FF00000000#41

/-- The decode map (30_encoding R93): a word that matches a specific row decodes to that row's kind, no word matches two,
and a word that matches none decodes to the fallback row it matches. -/
def Obligations.EveryWordDecodesByTheDecodeMap : Prop :=
  ∀ t : TWord,
    (∀ row ∈ decodeMap, rowMatches row t = true → (decode t).mnemonic = row.1) ∧
    (∀ row ∈ decodeMap, ∀ row' ∈ decodeMap, rowMatches row t = true → rowMatches row' t = true → row = row') ∧
    ((∀ row ∈ decodeMap, rowMatches row t = false) →
      ∃ row ∈ fallbackMap, rowMatches row t = true ∧ (decode t).mnemonic = row.1)

/-- A transaction of a reserved offset: 0x28 to 0xFC, or bits [1:0] not 0 (40 R144, R145, 30_encoding R96). -/
def Obligations.ReservedOffsetsReadZeroAndIgnoreWrites : Prop :=
  ∀ (off : Byte) (wdata : Word) (s : State), (0x28 ≤ off.toNat ∨ off.toNat % 4 ≠ 0) →
    decode (packWord false off wdata) = .rdRsv off ∧
    decode (packWord true off wdata) = .wrRsv off wdata ∧
    exec (.rdRsv off) s = .next { s with rdata := 0x00000000#32 } ∧
    exec (.wrRsv off wdata) s = .next s

/-- ID reads its hardwired value in every state and ignores writes (40 R120, R121). -/
def Obligations.IdentityIsHardwired : Prop :=
  ∀ (s : State) (wdata : Word),
    exec .rdId s = .next { s with rdata := 0x49324341#32 } ∧
    exec (.wrId wdata) s = .next s

/-- RD_CTRL (40 R122): IRQ_EN in bit 2, FILTER in bit 1, and 0 elsewhere. -/
def Obligations.CtrlReadShowsIrqEnableAndFilter : Prop :=
  ∀ s : State, ∃ t, exec .rdCtrl s = .next t ∧ t = { s with rdata := t.rdata } ∧
    t.rdata.toNat = 4 * s.irqEn.toNat + 2 * s.filter.toNat

/-- WR_CTRL (40 R124, with the field update of R123): FILTER and IRQ_EN, and nothing else. -/
def Obligations.CtrlWriteSetsFilterAndIrqEnable : Prop :=
  ∀ (s : State) (wdata : Word),
    exec (.wrCtrl wdata) s = .next { s with filter := wdata.getLsbD 1, irqEn := wdata.getLsbD 2 }

/-- A START (40 R125): in IDLE the configuration is latched with the FILTER of the same write, DONE, ERR, ERRCODE and the
results become 0, BUSY becomes 1 and irq 0; in BUSY only FILTER and IRQ_EN change. -/
def Obligations.StartLatchesInIdleAndIsIgnoredInBusy : Prop :=
  ∀ (s : State) (wdata : Word) (i : Instr), (i = .startNearest wdata ∨ i = .startBilinear wdata) →
    (s.phase = .idle → ∃ t, exec i s = .next t ∧ t.irq = false ∧
      t = { s with
            filter := wdata.getLsbD 1, irqEn := wdata.getLsbD 2,
            job := { src := s.srcAddr, ow := s.srcW, oh := s.srcH, maxDim := s.maxDim, dst := s.dstAddr,
                     filter := wdata.getLsbD 1 },
            done := false, err := false, errcode := 0#4, outW := 0#32, outH := 0#32, outLen := 0#32,
            phase := .busy }) ∧
    (s.phase = .busy → exec i s = .next { s with filter := wdata.getLsbD 1, irqEn := wdata.getLsbD 2 })

/-- Two STARTs with the completion step between neither run one job, the first one's (70 R320). -/
def Obligations.SecondStartWhileBusyIsLost : Prop :=
  ∀ (s : State) (a b : Word) (i k : Instr) (es : List Event),
    s.phase = .idle → (i = .startNearest a ∨ i = .startBilinear a) → (k = .startNearest b ∨ k = .startBilinear b) →
    i.wf = true → k.wf = true →
    s.events = .transaction (encode i) :: .transaction (encode k) :: es →
    ∃ t, Host.Core.run Sys2Proof.core 2 s = .next t ∧ t.phase = .busy ∧
      t.job = { src := s.srcAddr, ow := s.srcW, oh := s.srcH, maxDim := s.maxDim, dst := s.dstAddr,
                filter := a.getLsbD 1 } ∧
      t.filter = b.getLsbD 1 ∧ t.irqEn = b.getLsbD 2 ∧ t.err = false ∧ t.events = es ∧ t.mem = s.mem

/-- RD_STATUS (40 R128): ERRCODE in bits [7:4], ERR in 2, DONE in 1, BUSY in 0, and 0 elsewhere; a read clears nothing. -/
def Obligations.StatusReadAssemblesTheFlags : Prop :=
  ∀ s : State, ∃ t, exec .rdStatus s = .next t ∧ t = { s with rdata := t.rdata } ∧
    t.rdata.toNat =
      16 * s.errcode.toNat + 4 * s.err.toNat + 2 * s.done.toNat + (if s.phase = .busy then 1 else 0)

/-- WR_STATUS (40 R129): 1 clears DONE or ERR, 0 leaves it; BUSY, ERRCODE and all else are not changed. Said of the
fields, and again of the word that a STATUS read returns. -/
def Obligations.StatusWriteClearsTheWrittenOnes : Prop :=
  ∀ (s : State) (wdata : Word), ∃ t, exec (.wrStatus wdata) s = .next t ∧
    t = { s with done := t.done, err := t.err } ∧
    (wdata.getLsbD 1 = true → t.done = false) ∧ (wdata.getLsbD 1 = false → t.done = s.done) ∧
    (wdata.getLsbD 2 = true → t.err = false) ∧ (wdata.getLsbD 2 = false → t.err = s.err) ∧
    readReg .status t = readReg .status s &&& ~~~(wdata &&& 0x00000006#32)

/-- Reads of the configuration registers (40 R130, R132, R134, R136): the live register, fields at their places. -/
def Obligations.ConfigurationReadsReturnTheLiveRegister : Prop :=
  ∀ s : State,
    exec .rdSrcAddr s = .next { s with rdata := s.srcAddr } ∧
    (∃ t, exec .rdSrcSize s = .next t ∧ t = { s with rdata := t.rdata } ∧
      t.rdata.toNat = 65536 * s.srcH.toNat + s.srcW.toNat) ∧
    (∃ t, exec .rdMaxDim s = .next t ∧ t = { s with rdata := t.rdata } ∧ t.rdata.toNat = s.maxDim.toNat) ∧
    (∃ t, exec .rdMaxDim State.reset = .next t ∧ t.rdata = 0x00000400#32) ∧
    exec .rdDstAddr s = .next { s with rdata := s.dstAddr }

/-- Writes of the configuration registers (40 R131, R133, R135, R137): the named fields, every value accepted, and
nothing else; WDATA[31:16] of a MAX_DIM write is ignored. -/
def Obligations.ConfigurationWritesSetTheirFields : Prop :=
  ∀ (s : State) (wdata : Word),
    exec (.wrSrcAddr wdata) s = .next { s with srcAddr := wdata } ∧
    (∃ t, exec (.wrSrcSize wdata) s = .next t ∧ t = { s with srcW := t.srcW, srcH := t.srcH } ∧
      t.srcW.toNat = wdata.toNat % 65536 ∧ t.srcH.toNat = wdata.toNat / 65536) ∧
    (∃ t, exec (.wrMaxDim wdata) s = .next t ∧ t = { s with maxDim := t.maxDim } ∧
      t.maxDim.toNat = wdata.toNat % 65536) ∧
    exec (.wrDstAddr wdata) s = .next { s with dstAddr := wdata }

/-- Reads of the result registers (the pseudocode of 40 R138, R140, R142). -/
def Obligations.ResultReadsReturnTheRegister : Prop :=
  ∀ s : State,
    exec .rdOutW s = .next { s with rdata := s.outW } ∧
    exec .rdOutH s = .next { s with rdata := s.outH } ∧
    exec .rdOutLen s = .next { s with rdata := s.outLen }

/-- Writes of the result registers are ignored (40 R139, R141, R143). -/
def Obligations.ResultWritesAreIgnored : Prop :=
  ∀ (s : State) (wdata : Word),
    exec (.wrOutW wdata) s = .next s ∧ exec (.wrOutH wdata) s = .next s ∧ exec (.wrOutLen wdata) s = .next s

/-- Every 41-bit word runs, and none raises an error or sets ERR (30_encoding R95, 60 R273). -/
def Obligations.NoWordStopsTheBlockOrSetsErr : Prop :=
  (∀ (i : Instr) (s : State), GoesOn (exec i s)) ∧
  (∀ (s : State) (t : TWord) (es : List Event), s.events = .transaction t :: es →
    ∃ u, step s = .next u ∧ u.events = es ∧ (u.err = true → s.err = true))

/-- The frame of the transactions as a whole (10_state R47, 20_memory R60): none touches memory, the parameters or the
host's own byte; only a START can change PHASE, JOB, ERRCODE or a result; only a START or a STATUS write changes DONE or
ERR, and then only to 0. -/
def Obligations.OnlyStartHasSideEffectsOnFlags : Prop :=
  ∀ (i : Instr) (s t : State), exec i s = .next t →
    (t.mem = s.mem ∧ t.hostByte = s.hostByte ∧ t.events = s.events ∧ t.draws = s.draws ∧ t.config = s.config) ∧
    (i.isStart = false → t.phase = s.phase ∧ t.job = s.job ∧ t.errcode = s.errcode ∧ t.outW = s.outW ∧
      t.outH = s.outH ∧ t.outLen = s.outLen) ∧
    (i.isStart = false → (∀ wdata, i ≠ .wrStatus wdata) → t.done = s.done ∧ t.err = s.err) ∧
    (t.done = true → s.done = true) ∧ (t.err = true → s.err = true)

/-- 'Reset is the only way to stop a running job' (70 R301): a step that takes the block from BUSY to IDLE is the engine's
own completion step, or the reset event. -/
def Obligations.OnlyCompletionOrResetEndsAJob : Prop :=
  ∀ s t : State, step s = .next t → s.phase = .busy → t.phase = .idle →
    (s.events = [] ∧ completionStep s = .next t) ∨
    (∃ es, s.events = .engine :: es ∧ completionStep { s with events := es } = .next t) ∨
    (∃ es, s.events = .reset :: es)

/-- The interrupt line (60 R275): a STATUS write leaves it high only while an enabled flag stays set, so it falls with the
last set one; a CTRL write that clears IRQ_EN, START (in a legal state, BUSY or IDLE) and reset take it down; it rises with
the completion step, or on a CTRL write that sets IRQ_EN while DONE or ERR is 1; no other transaction changes it, and once
high it falls only in a step that issues a transaction or a reset. -/
def Obligations.InterruptFollowsItsBits : Prop :=
  (∀ (s t : State) (wdata : Word), exec (.wrStatus wdata) s = .next t →
    t.irq = (s.irqEn && ((s.done && !wdata.getLsbD 1) || (s.err && !wdata.getLsbD 2)))) ∧
  (∀ (s t : State) (wdata : Word), exec (.wrCtrl wdata) s = .next t →
    t.irq = (wdata.getLsbD 2 && (s.done || s.err))) ∧
  (∀ (s t : State) (i : Instr), exec i s = .next t → i.isStart = true →
    s.phase = .idle ∨ RegsLegal s → t.irq = false) ∧
  (∀ (s t : State) (i : Instr), exec i s = .next t → i.isStart = false → (∀ wdata, i ≠ .wrStatus wdata) →
    (∀ wdata, i ≠ .wrCtrl wdata) → t.irq = s.irq) ∧
  (∀ s t : State, completionStep s = .next t → t.irq = s.irqEn) ∧
  (∀ s t : State, resetTurn s = .next t → t.irq = false) ∧
  (∀ s t : State, step s = .next t → s.irq = true → t.irq = false →
    ∃ e es, s.events = e :: es ∧ (e = .reset ∨ e.isTransaction = true))

/-- The bounds of a non-zero target (41_resizer R166). -/
def Obligations.TargetDimsBounds : Prop :=
  (∀ ow oh m : Nat, 1 ≤ ow → ow ≤ 65535 → 1 ≤ oh → oh ≤ 65535 → m ≤ 65535 →
    (targetDims ow oh m).1 ≠ 0 → (targetDims ow oh m).2 ≠ 0 →
    (targetDims ow oh m).1 % 2 = 0 ∧ 2 ≤ (targetDims ow oh m).1 ∧ (targetDims ow oh m).1 ≤ 65534 ∧
    1 ≤ (targetDims ow oh m).2 ∧ (targetDims ow oh m).2 ≤ 131070 ∧
    ((targetDims ow oh m).2 > 65535 → ow = 1 ∧ targetDims ow oh m = (2, 2 * oh)) ∧
    ((targetDims ow oh m).2 > m → (scaleDown ow oh m).1 = 1 ∧ (targetDims ow oh m).1 = 2) ∧
    2 * packedLen (targetDims ow oh m) = (targetDims ow oh m).1 * (targetDims ow oh m).2 ∧
    packedLen (targetDims ow oh m) ≤ 2147385345) ∧
  targetDims 65534 65535 65535 = (65534, 65535) ∧ packedLen (65534, 65535) = 2147385345

/-- A source within the bound is adjusted by the even-width rule alone (41_resizer R168). -/
def Obligations.UnscaledTargetIsTheEvenSource : Prop :=
  ∀ ow oh m : Nat, 1 ≤ ow → 1 ≤ oh → max ow oh ≤ m →
    (ow % 2 = 0 → targetDims ow oh m = (ow, oh)) ∧
    (ow % 2 = 1 → 1 < ow → targetDims ow oh m = (ow - 1, rhu (oh * (ow - 1)) ow)) ∧
    (ow = 1 → targetDims ow oh m = (2, 2 * oh))

/-- When the target is 0 (41_resizer R167, and R163 for M = 0). -/
def Obligations.TargetIsZeroExactlyWhen : Prop :=
  ∀ ow oh m : Nat, 1 ≤ ow → 1 ≤ oh →
    ((targetDims ow oh m).1 = 0 ↔ m = 0 ∨ (oh > ow ∧ oh > m ∧ 2 * ow * m < oh)) ∧
    ((scaleDown ow oh m).2 = 0 ↔ m = 0 ∨ (ow ≥ oh ∧ ow > m ∧ 2 * oh * m < ow)) ∧
    ((targetDims ow oh m).2 = 0 ↔
      ((scaleDown ow oh m).1 % 2 = 0 ∧ (scaleDown ow oh m).2 = 0) ∨
      ((scaleDown ow oh m).1 % 2 = 1 ∧ 2 * (oh * (targetDims ow oh m).1) < ow)) ∧
    (m = 0 → targetDims ow oh m = (0, 0))

/-- Nearest sampling takes the source pixel that contains the output pixel's centre (41_resizer R170): the index is in
the source, is the floor of (x + 1/2)*ow/W, and is x where nothing is scaled; and a job of FILTER 0 samples so along both
axes (R169). -/
def Obligations.NearestTakesThePixelUnderTheCentre : Prop :=
  (∀ o n x : Nat, 0 < o → x < n →
    nearestIndex o n x < o ∧
    nearestIndex o n x * (2 * n) ≤ (2 * x + 1) * o ∧ (2 * x + 1) * o < (nearestIndex o n x + 1) * (2 * n) ∧
    (n = o → nearestIndex o n x = x)) ∧
  (∀ (j : Job) (m : Memory) (w h x y : Nat), j.filter = false →
    resample j m w h x y = srcPixel j m (nearestIndex j.ow.toNat w x) (nearestIndex j.oh.toNat h y))

/-- The corners of bilinear sampling along one axis (41_resizer R172, R173 a to c): low corner and weight are quotient and
remainder by 2n of the centre position `(2x+1)*o - n`, on integers, clamped to `[0, 2n*(o-1)]`; the high corner is the next
one, but the last at the edge; both are in the source, the weight below 2n, one corner only at the last one with weight 0,
and the pixel itself where nothing is scaled. -/
def Obligations.BilinearCornersStayInTheSource : Prop :=
  ∀ o n x : Nat, 0 < o → x < n →
    ((bilinearLow o n x * (2 * n) + bilinearWeight o n x : Nat) : Int) =
      min (max ((2 * (x : Int) + 1) * (o : Int) - (n : Int)) 0) (2 * (n : Int) * ((o : Int) - 1)) ∧
    bilinearHigh o n x = min (bilinearLow o n x + 1) (o - 1) ∧
    bilinearLow o n x < o ∧ bilinearHigh o n x < o ∧ bilinearWeight o n x < 2 * n ∧
    (bilinearHigh o n x = bilinearLow o n x → bilinearWeight o n x = 0) ∧
    (o = 1 → bilinearLow o n x = 0 ∧ bilinearHigh o n x = 0 ∧ bilinearWeight o n x = 0) ∧
    (n = o → bilinearLow o n x = x ∧ bilinearWeight o n x = 0)

/-- A bilinear channel is a convex combination of the four corners (41_resizer R173 d): the sum is at most 255*4*W*H, the
result is its rounded quotient untruncated and lies between any bounds that the four corners keep; and each channel of a
job of FILTER 1 is that mix of the four corner pixels with the weights of both axes (R169, R172). -/
def Obligations.BilinearChannelStaysBetweenItsCorners : Prop :=
  (∀ (w h ax ay lo hi : Nat) (p00 p10 p01 p11 : Byte), 0 < w → 0 < h → ax < 2 * w → ay < 2 * h →
    (∀ p ∈ [p00, p10, p01, p11], lo ≤ p.toNat ∧ p.toNat ≤ hi) →
    bilinearSum w h ax ay p00.toNat p10.toNat p01.toNat p11.toNat ≤ 255 * (4 * w * h) ∧
    (mixChannel w h ax ay p00 p10 p01 p11).toNat =
      rhu (bilinearSum w h ax ay p00.toNat p10.toNat p01.toNat p11.toNat) (4 * w * h) ∧
    lo ≤ (mixChannel w h ax ay p00 p10 p01 p11).toNat ∧ (mixChannel w h ax ay p00 p10 p01 p11).toNat ≤ hi) ∧
  (∀ (j : Job) (m : Memory) (w h x y x0 x1 y0 y1 ax ay : Nat), j.filter = true →
    x0 = bilinearLow j.ow.toNat w x → x1 = bilinearHigh j.ow.toNat w x → ax = bilinearWeight j.ow.toNat w x →
    y0 = bilinearLow j.oh.toNat h y → y1 = bilinearHigh j.oh.toNat h y → ay = bilinearWeight j.oh.toNat h y →
    ∀ ch ∈ [Pixel.r, Pixel.g, Pixel.b, Pixel.a],
      ch (resample j m w h x y) =
        mixChannel w h ax ay (ch (srcPixel j m x0 y0)) (ch (srcPixel j m x1 y0)) (ch (srcPixel j m x0 y1))
          (ch (srcPixel j m x1 y1)))

/-- The kind of START selects the filter that the job runs (40 R126, R127, 41_resizer R169): from IDLE, a START_NEAREST word
gives a job whose every output pixel is RESAMPLE_NEAREST's, a START_BILINEAR word one whose every output pixel is
RESAMPLE_BILINEAR's; and the target never depends on the filter. -/
def Obligations.StartKindSelectsTheFilter : Prop :=
  (∀ (s : State) (wdata : Word), s.phase = .idle → (Instr.startNearest wdata).wf = true →
    ∃ t, exec (.startNearest wdata) s = .next t ∧ t.phase = .busy ∧ t.filter = false ∧ t.job.filter = false ∧
      ∀ m w h x y, resample t.job m w h x y = resampleNearest t.job m w h x y) ∧
  (∀ (s : State) (wdata : Word), s.phase = .idle → (Instr.startBilinear wdata).wf = true →
    ∃ t, exec (.startBilinear wdata) s = .next t ∧ t.phase = .busy ∧ t.filter = true ∧ t.job.filter = true ∧
      ∀ m w h x y, resample t.job m w h x y = resampleBilinear t.job m w h x y) ∧
  (∀ (j : Job) (b : Bool), jobDims { j with filter := b } = jobDims j)

/-- A uniform source gives a uniform grid under either filter (41_resizer R173 d, vector Q10): every output pixel of a job
that passed its checks is the source's one pixel. -/
def Obligations.UniformSourceGivesUniformGrid : Prop :=
  ∀ (j : Job) (m : Memory) (p : Pixel) (x y : Nat), checkJob j = none →
    (∀ sx sy, sx < j.ow.toNat → sy < j.oh.toNat → srcPixel j m sx sy = p) →
    x < (jobDims j).1 → y < (jobDims j).2 →
    resample j m (jobDims j).1 (jobDims j).2 x y = p

/-- NEED is the R, G and B bytes of the pixels that the filter names for the output pixels, and nothing else (20_memory R67,
41_resizer R174): one source pixel under nearest, the four corners under bilinear. -/
def Obligations.NeedIsTheColoursOfTheSampledPixels : Prop :=
  ∀ (j : Job) (w h a : Nat),
    a ∈ neededAddrs j w h ↔
      ∃ x y c sx sy, x < w ∧ y < h ∧ c < 3 ∧ a = j.src.toNat + 4 * (sy * j.ow.toNat + sx) + c ∧
        (j.filter = false → sx = nearestIndex j.ow.toNat w x ∧ sy = nearestIndex j.oh.toNat h y) ∧
        (j.filter = true → (sx = bilinearLow j.ow.toNat w x ∨ sx = bilinearHigh j.ow.toNat w x) ∧
          (sy = bilinearLow j.oh.toNat h y ∨ sy = bilinearHigh j.oh.toNat h y))

/-- Every byte a passing job needs lies in SRC_REGION, below 2^32, and outside DST_REGION (20_memory R66, R67, R69). -/
def Obligations.NeededBytesLieInTheSource : Prop :=
  ∀ (j : Job) (a : Nat), checkJob j = none → a ∈ neededAddrs j (jobDims j).1 (jobDims j).2 →
    AddrRange.has (srcRegion j) a = true ∧ a < 2 ^ 32 ∧ AddrRange.has (dstRegion j) a = false

/-- The exact luma (42_quantizer R191): `(S + 500) div 1000`, at most 255, and a gray is its own luma. -/
def Obligations.ExactLumaIsBoundedAndKeepsGrays : Prop :=
  ∀ r g b : Nat, r ≤ 255 → g ≤ 255 → b ≤ 255 →
    lumaExact r g b = (299 * r + 587 * g + 114 * b + 500) / 1000 ∧ lumaExact r g b ≤ 255 ∧
    lumaExact r r r = r

/-- Binary64 luma differs from the exact one on exact ties only, and there by at most one, downwards (42_quantizer
R192; the binary64 arithmetic is the model's integer form of it, log 6). -/
def Obligations.BinaryLumaDiffersOnTiesOnly : Prop :=
  ∀ r g b : Nat, r ≤ 255 → g ≤ 255 → b ≤ 255 →
    ((299 * r + 587 * g + 114 * b) % 1000 ≠ 500 → lumaBinary64 r g b = lumaExact r g b) ∧
    (lumaBinary64 r g b = lumaExact r g b ∨ lumaBinary64 r g b + 1 = lumaExact r g b)

/-- The properties of the Quantizer (42_quantizer R196), in either arithmetic: black gives 0 and white 15, whatever alpha;
the intensity is QUANT4 of the gray untruncated, at most 15; and a higher gray never gives a lower intensity. -/
def Obligations.QuantizerIsMonotonicBetweenBlackAndWhite : Prop :=
  ∀ (arith : LumaArith) (p q : Pixel) (alpha : Byte),
    quantize arith { r := 0#8, g := 0#8, b := 0#8, a := alpha } = 0#4 ∧
    quantize arith { r := 255#8, g := 255#8, b := 255#8, a := alpha } = 15#4 ∧
    (quantize arith p).toNat = quant4 (luma arith p.r.toNat p.g.toNat p.b.toNat) ∧
    quant4 (luma arith p.r.toNat p.g.toNat p.b.toNat) ≤ 15 ∧
    (luma arith p.r.toNat p.g.toNat p.b.toNat > luma arith q.r.toNat q.g.toNat q.b.toNat →
      (quantize arith q).toNat ≤ (quantize arith p).toNat)

/-- The two-stage rounding equals the single rounding `(S + 8500) div 17000` under EXACT (42_quantizer R194), and QUANT4 is
`(gray + 8) div 17` (R193). -/
def Obligations.TwoStageRoundingEqualsTheFusedOne : Prop :=
  (∀ gray : Nat, gray ≤ 255 → quant4 gray = (gray + 8) / 17) ∧
  (∀ sum : Nat, sum ≤ 255000 → quant4 (rhu sum 1000) = (sum + 8500) / 17000) ∧
  (∀ r g b : Nat, r ≤ 255 → g ≤ 255 → b ≤ 255 →
    quant4 (lumaExact r g b) = (299 * r + 587 * g + 114 * b + 8500) / 17000)

/-- Unpacking gives the IntensityGrid back, and every byte value is one pair of intensities (43_packer R214). -/
def Obligations.UnpackingGivesTheIntensitiesBack : Prop :=
  (∀ (n : Nat) (f : Nat → Nibble) (k : Nat), k < n →
    (packBytes n f)[k]?.map highNibble = some (f (2 * k)) ∧
    (packBytes n f)[k]?.map lowNibble = some (f (2 * k + 1))) ∧
  (∀ b : Byte, packByte (highNibble b) (lowNibble b) = b)

/-- Each byte of a job's ByteArray holds two pixels of one row, and each row starts on a byte boundary (43_packer R212): the
array has W*H/2 bytes, and byte k packs output pixel (x, y) with its right-hand neighbour (x+1, y), where x = 2k mod W is
even and y = 2k div W; each of the two is resampled, then quantized, the even one in the high nibble (R210, R211, 42 R195,
44 R233); row r holds the bytes r*W/2 to (r+1)*W/2 - 1 and no other. -/
def Obligations.PackedPairsLieInOneRow : Prop :=
  ∀ (arith : LumaArith) (j : Job) (m : Memory) (w h : Nat), w % 2 = 0 →
    2 * (jobBytes arith j m w h).length = w * h ∧
    ∀ (k x y : Nat) (left right : Nibble), 2 * k < w * h → x = (2 * k) % w → y = (2 * k) / w →
      left = quantize arith (resample j m w h x y) → right = quantize arith (resample j m w h (x + 1) y) →
      x % 2 = 0 ∧ x + 1 < w ∧ y < h ∧
      (∃ b, (jobBytes arith j m w h)[k]? = some b ∧ b = packByte left right ∧
        b.toNat = 16 * left.toNat + right.toNat) ∧
      ∀ r, (r * (w / 2) ≤ k ∧ k ≤ (r + 1) * (w / 2) - 1) ↔ r = y

/-- A job reports at most one error, the first that applies in the order 1 to 5 (60 R267), and the checks 1 to 4 read no
memory; the conditions in plain numbers are those of R262 to R265. -/
def Obligations.FirstFailingCheckIsReported : Prop :=
  ∀ (c : Config) (j : Job) (m : Memory) (choice : Bool) (ow oh len srcEnd dstEnd : Nat) (d : Nat × Nat),
    ow = j.ow.toNat → oh = j.oh.toNat → d = targetDims ow oh j.maxDim.toNat → len = d.1 * d.2 / 2 →
    srcEnd = j.src.toNat + 4 * ow * oh → dstEnd = j.dst.toNat + len →
    if ow = 0 ∨ oh = 0 then runJob c j m choice = .err .invalidDimensions
    else if d.1 = 0 ∨ d.2 = 0 then runJob c j m choice = .err .targetDimZero
    else if srcEnd > 2 ^ 32 ∨ dstEnd > 2 ^ 32 then runJob c j m choice = .err .addrRange
    else if j.src.toNat < dstEnd ∧ j.dst.toNat < srcEnd then runJob c j m choice = .err .overlap
    else runJob c j m choice = .err .busError ∨
      ∃ bytes, runJob c j m choice = .ok d.1 d.2 bytes ∧ bytes.length = len

/-- BUS_ERROR (60 R266), for a job that passed its checks: a bad byte in NEED or DST_REGION fails the job; a bad byte
elsewhere in SRC_REGION leaves both outcomes open, as the free choice has it (log 14); otherwise the job succeeds. -/
def Obligations.BusErrorExactlyWhereTheBusFails : Prop :=
  ∀ (c : Config) (j : Job) (m : Memory) (choice : Bool) (d : Nat × Nat), checkJob j = none → d = jobDims j →
    ((∃ a, (a ∈ neededAddrs j d.1 d.2 ∨ AddrRange.has (dstRegion j) a = true) ∧ memOK c a = false) →
      runJob c j m choice = .err .busError) ∧
    ((∀ a, (a ∈ neededAddrs j d.1 d.2 ∨ AddrRange.has (dstRegion j) a = true) → memOK c a = true) →
      (∃ a, AddrRange.has (srcRegion j) a = true ∧ memOK c a = false) →
      runJob c j m true = .err .busError ∧
      runJob c j m false = .ok d.1 d.2 (jobBytes c.lumaArith j m d.1 d.2)) ∧
    ((∀ a, (AddrRange.has (srcRegion j) a = true ∨ AddrRange.has (dstRegion j) a = true) → memOK c a = true) →
      runJob c j m choice = .ok d.1 d.2 (jobBytes c.lumaArith j m d.1 d.2))

/-- The completion step (44 R240): on OK the LEN bytes stand at JOB.dst on, OUT_W, OUT_H and OUT_LEN hold the result, DONE
is 1, PHASE is IDLE, every other byte and field is as before; on ERR the step is the error entry of 60 R270. -/
def Obligations.CompletionPublishesTheOutcome : Prop :=
  ∀ (s : State) (w h : Nat) (bytes : List Byte) (c : ErrCode) (o : JobOutcome),
    s.phase = .busy → regionsNormal s.config s.job = true →
    o = runJob s.config s.job s.mem (Config.freeChoice s.draws) →
    (o = .ok w h bytes → ∃ t, engineTurn s = .next t ∧
      (∀ (k : Nat) (hk : k < bytes.length), Memory.read t.mem (s.job.dst.toNat + k) = bytes[k]) ∧
      SameOutside s.job.dst.toNat (s.job.dst.toNat + bytes.length) s.mem t.mem ∧
      t.outW.toNat = w ∧ t.outH.toNat = h ∧ t.outLen.toNat = bytes.length ∧ t.done = true ∧ t.phase = .idle ∧
      t.err = s.err ∧ t.errcode = s.errcode ∧ t.job = s.job ∧ SameSetup s t ∧ SameSurroundings s t) ∧
    (o = .err c → ∃ u, engineTurn s = .next (errorEntry c u) ∧ u = { s with draws := u.draws })

/-- Error entry (60 R270, R269): ERR is 1, ERRCODE is the number of the cause, PHASE is IDLE, irq rises with IRQ_EN, every
other register is as before; codes 1 to 4 leave memory as it is, BUS_ERROR every byte outside DST_REGION. -/
def Obligations.ErrorEntryRecordsOnlyTheCode : Prop :=
  ∀ (s : State) (c : ErrCode),
    (errorEntry c s).err = true ∧
    (errorEntry c s).errcode.toNat =
      (match c with
       | .invalidDimensions => 1
       | .targetDimZero => 2
       | .addrRange => 3
       | .overlap => 4
       | .busError => 5) ∧
    (errorEntry c s).phase = .idle ∧ (errorEntry c s).irq = s.irqEn ∧
    (errorEntry c s).done = s.done ∧ (errorEntry c s).outW = s.outW ∧ (errorEntry c s).outH = s.outH ∧
    (errorEntry c s).outLen = s.outLen ∧ (errorEntry c s).job = s.job ∧
    SameSetup s (errorEntry c s) ∧ SameSurroundings s (errorEntry c s) ∧
    (c ≠ .busError → (errorEntry c s).mem = s.mem) ∧
    SameOutside (dstRegion s.job).lo (dstRegion s.job).hi s.mem (errorEntry c s).mem

/-- No partial results (44 R242): in a legal state the completion step leaves a complete result and no error, or an error
with its code and no result. -/
def Obligations.NoPartialResults : Prop :=
  ∀ s t : State, RegsLegal s → s.phase = .busy → completionStep s = .next t →
    (t.done = true ∧ t.err = false ∧ t.errcode = 0#4 ∧ t.outW ≠ 0#32 ∧ t.outH ≠ 0#32 ∧ t.outLen ≠ 0#32) ∨
    (t.done = false ∧ t.err = true ∧ t.errcode ≠ 0#4 ∧ t.outW = 0#32 ∧ t.outH = 0#32 ∧ t.outLen = 0#32)

/-- The engine changes no byte outside DST_REGION, no byte of SRC_REGION, and none at all for a job that fails a check
(20_memory R66, 44 R235). -/
def Obligations.EngineWritesOnlyItsDestination : Prop :=
  ∀ s t : State, completionStep s = .next t →
    SameOutside (dstRegion s.job).lo (dstRegion s.job).hi s.mem t.mem ∧
    ((checkJob s.job).isSome = true → t.mem = s.mem) ∧
    (checkJob s.job = none → ∀ a, AddrRange.has (srcRegion s.job) a = true →
      Memory.read t.mem a = Memory.read s.mem a)

/-- What a job reports and packs is a function of JOB, the parameters, the free choice and the bytes of NEED (44 R232, R238,
41 R174, 42 R190); so every byte outside NEED may differ, and in particular alpha and every byte outside SRC_REGION. -/
def Obligations.OutcomeDependsOnSourceColoursOnly : Prop :=
  ∀ (c : Config) (j : Job) (m m' : Memory) (choice : Bool),
    (∀ a ∈ neededAddrs j (jobDims j).1 (jobDims j).2, Memory.read m' a = Memory.read m a) ∨ SameColours j m m' →
    runJob c j m' choice = runJob c j m choice

/-- An unscaled job of even width encodes its source pixel by pixel under either filter (41 R168, R170 b, R173 c, 42 R195,
43 R211): byte k is the packed intensities of source pixels 2k and 2k+1 in row-major order. -/
def Obligations.UnscaledJobEncodesTheSourceItself : Prop :=
  ∀ (c : Config) (j : Job) (m : Memory) (choice : Bool) (w h : Nat) (bytes : List Byte),
    j.ow.toNat % 2 = 0 → max j.ow.toNat j.oh.toNat ≤ j.maxDim.toNat →
    runJob c j m choice = .ok w h bytes →
    w = j.ow.toNat ∧ h = j.oh.toNat ∧
    bytes = packBytes (w * h / 2) (fun i => quantize c.lumaArith (srcPixel j m (i % w) (i / w)))

/-- A configuration write while BUSY changes the register, not the running job: it and the completion step give the same
state in either order (70 R322, 10_state R42). -/
def Obligations.ConfigurationWritesCommuteWithCompletion : Prop :=
  ∀ (s t u : State) (i : Instr), s.phase = .busy → i.isSetup = true →
    completionStep s = .next t → exec i s = .next u →
    ∃ v, completionStep u = .next v ∧ exec i t = .next v

/-- The reset event (70 R300): every register reads as after reset, irq is 0, PHASE is IDLE, parameters are unchanged
(R303); memory is unchanged, but for DST_REGION of a job that was BUSY. The model's own (DEDUCED): the host's rdata,
hostByte and remaining events are kept (log 19), and a BUSY job that fails a check, having no DST_REGION, leaves all of
memory (log 13); a job on memory with side effects has no reset step (log 5). -/
def Obligations.ResetEventRestoresTheRegisters : Prop :=
  (∀ s t : State, resetTurn s = .next t →
    t.phase = .idle ∧ t.irq = false ∧ t.irqEn = false ∧ t.filter = false ∧
    t.done = false ∧ t.err = false ∧ t.errcode.toNat = 0 ∧
    t.srcAddr.toNat = 0 ∧ t.srcW.toNat = 0 ∧ t.srcH.toNat = 0 ∧ t.maxDim.toNat = 1024 ∧ t.dstAddr.toNat = 0 ∧
    t.outW.toNat = 0 ∧ t.outH.toNat = 0 ∧ t.outLen.toNat = 0 ∧
    (∀ r : Reg, readReg r t = readReg r State.reset) ∧ SameSurroundings s t ∧
    ((s.phase = .idle ∨ (checkJob s.job).isSome = true) → t.mem = s.mem) ∧
    (s.phase = .busy → SameOutside (dstRegion s.job).lo (dstRegion s.job).hi s.mem t.mem)) ∧
  (∀ s : State, (s.phase = .idle ∨ regionsNormal s.config s.job = true) → GoesOn (resetTurn s))

/-- The registers of the reset state read as the table of 10_state R44 says, and irq is 0. -/
def Obligations.ResetStateReadsAsTheTable : Prop :=
  ∀ (r : Reg), (readReg r State.reset).toNat =
      (match r with
       | .id => 0x49324341
       | .maxDim => 0x400
       | .ctrl => 0
       | .status => 0
       | .srcAddr => 0
       | .srcSize => 0
       | .dstAddr => 0
       | .outW => 0
       | .outH => 0
       | .outLen => 0) ∧ State.reset.irq = false ∧ State.reset.phase = .idle

/-- The register invariant of 10_state R45 and the canonical form of memory hold at reset. -/
def Obligations.ResetStateIsLegal : Prop := RegsLegal State.reset ∧ MemLegal State.reset

/-- Every step keeps the register invariants (10_state R32, R39 to R41, R45): BUSY excludes DONE and ERR, DONE excludes ERR,
ERRCODE is at most 5, and the result registers are all 0 or a successful job's. -/
def Obligations.StepsKeepTheRegistersLegal : Prop :=
  ∀ s t : State, RegsLegal s → step s = .next t → RegsLegal t

/-- Every step keeps memory in canonical form, with no cell at an address that does not exist (20_memory R60, R69). -/
def Obligations.StepsKeepMemoryCanonical : Prop :=
  ∀ s t : State, MemLegal s → step s = .next t → MemLegal t

/-- No step changes a parameter (10_state R20, 70 R303). -/
def Obligations.NoStepChangesTheParameters : Prop :=
  ∀ s t : State, step s = .next t → t.config = s.config

/-- A step whose next event is a transaction runs the decoded transaction on the state without that event, and so does the
step of a state that a table word was placed in (40 R146; the event list is the model's, log 1). -/
def Obligations.StepRunsTheDecodedTransaction : Prop :=
  (∀ (s : State) (t : TWord) (es : List Event), s.events = .transaction t :: es →
    step s = exec (decode t) { s with events := es } ∧ (decode t).wf = true) ∧
  (∀ (s : State) (nbits w : Nat) (i : Instr), decodeTableWord nbits w = some i →
    step (s.withFetchWord nbits w) = exec i s)

/-- Every job ends (44 R239): from BUSY, after the host's last transaction, whichever and however many they are, the
completion step ends the job with exactly one of DONE and ERR set. That the engine acts once the event list is empty is
the model's form of the fairness assumption (log 2). -/
def Obligations.EveryJobEndsAfterTheLastTransaction : Prop :=
  ∀ (s : State), RegsLegal s → s.phase = .busy → regionsNormal s.config s.job = true →
    (∀ e ∈ s.events, e.isTransaction = true) →
    ∃ t, Host.Core.run Sys2Proof.core (s.events.length + 1) s = .next t ∧ t.phase = .idle ∧ t.events = [] ∧
      (t.done = !t.err)

/-- The host's own accesses (20_memory R60, R74, R79; the events are the model's, logs 1, 15 and 16, and so is that they take
no heed of `MemOK`, log 26): a write while BUSY to
either region of a job that passed its checks has no step; any other write to memory that exists and is no device changes
that one byte and nothing else; a read returns the byte, but in DST_REGION while BUSY. -/
def Obligations.HostAccessesToMemory : Prop :=
  (∀ (s : State) (a : Nat) (v : Byte), s.phase = .busy → inRegions s.job a = true → a < addressSpace →
    isDevice s.config a = false → hostWriteTurn a v s = .refused .regionWrittenWhileBusy) ∧
  (∀ (s : State) (a : Nat) (v : Byte), (s.phase = .idle ∨ inRegions s.job a = false) → a < addressSpace →
    isDevice s.config a = false → ∃ t, hostWriteTurn a v s = .next t ∧ t = { s with mem := t.mem } ∧
      Memory.read t.mem a = v ∧ SameOutside a (a + 1) s.mem t.mem) ∧
  (∀ (s : State) (a : Nat), (s.phase = .idle ∨ inDstRegion s.job a = false) → a < addressSpace →
    isDevice s.config a = false → hostReadTurn a s = .next { s with hostByte := Memory.read s.mem a })

/-- While a job that passed its checks goes on, its latch and every byte of SRC_REGION stay as they are, whatever the host
does (20_memory R79, R80, 10_state R42): so reading the source at the completion step gives what START saw (44 R236). That
the bytes of DST_REGION stay too is no rule of the block, which lets them hold any value mid-job (20_memory R68, R70): it
is the model's form, which publishes at the completion step alone (44 R237, logs 15 and 18). -/
def Obligations.RunningJobSeesAStableSource : Prop :=
  ∀ s t : State, step s = .next t → s.phase = .busy → t.phase = .busy → checkJob s.job = none →
    t.job = s.job ∧ ∀ a, inRegions s.job a = true → Memory.read t.mem a = Memory.read s.mem a
end

