-- ==== Sys2Proof/Laws/Decode.lean ====
section
/-! SUPPORT. The fields of an assembled word, and the offsets. -/

namespace Sys2Proof

/-- The bits of an assembled word, field by field (30_encoding R90). -/
theorem getLsbD_packWord (we : Bool) (off : Byte) (wdata : Word) (i : Nat) :
    (packWord we off wdata).getLsbD i =
      if i < 32 then wdata.getLsbD i else if i - 32 < 8 then off.getLsbD (i - 32) else
        (BitVec.ofBool we).getLsbD (i - 32 - 8) := by
  have h := BitVec.getLsbD_append (x := BitVec.ofBool we ++ off) (y := wdata) (i := i)
  rw [BitVec.getLsbD_append (x := BitVec.ofBool we) (y := off)] at h
  exact h

@[simp] theorem we_packWord (we : Bool) (off : Byte) (wdata : Word) : TWord.we (packWord we off wdata) = we := by
  rw [TWord.we, getLsbD_packWord]
  cases we <;> rfl

@[simp] theorem off_packWord (we : Bool) (off : Byte) (wdata : Word) : TWord.off (packWord we off wdata) = off := by
  apply BitVec.eq_of_getLsbD_eq
  intro i hi
  have h1 : ¬ 32 + i < 32 := by omega
  have h2 : 32 + i - 32 = i := by omega
  rw [TWord.off, BitVec.getLsbD_extractLsb', getLsbD_packWord, if_neg h1, h2]
  simp [hi]

@[simp] theorem wdata_packWord (we : Bool) (off : Byte) (wdata : Word) : TWord.wdata (packWord we off wdata) = wdata := by
  apply BitVec.eq_of_getLsbD_eq
  intro i hi
  rw [TWord.wdata, BitVec.getLsbD_extractLsb', getLsbD_packWord, Nat.zero_add, if_pos hi]
  simp [hi]

/-- Each register is found at its offset (10_state R23). -/
@[simp] theorem regAt_offset (r : Reg) : regAt (Reg.offset r) = some r := by
  cases r <;> decide

/-- The reserved offsets are 0x28 to 0xFC and those with bits [1:0] not 0 (30_encoding R96). -/
theorem regAt_none_iff (off : Byte) : regAt off = none ↔ 0x28 ≤ off.toNat ∨ off.toNat % 4 ≠ 0 := by
  revert off; decide

end Sys2Proof
end

