-- ==== Sys2Proof/Laws/Memory.lean ====
section
/-! SUPPORT. The laws of memory: a read after a write, bytes that a write leaves alone, and that every memory operation
keeps the canonical form. -/

namespace Sys2Proof.Machine

theorem erase_no_cell (m : Memory) (a : Nat) : ∀ c ∈ Memory.erase m a, c.1 ≠ a := by
  induction m with
  | nil => simp [Memory.erase]
  | cons c m ih =>
    by_cases hc : c.1 = a
    · simpa [Memory.erase, hc] using ih
    · intro d hd
      simp only [Memory.erase, hc, if_false, List.mem_cons] at hd
      rcases hd with rfl | hd
      · exact hc
      · exact ih d hd

theorem read_erase_other (m : Memory) (a b : Nat) (h : b ≠ a) :
    Memory.read (Memory.erase m a) b = Memory.read m b := by
  induction m with
  | nil => rfl
  | cons c m ih =>
    by_cases hc : c.1 = a
    · have hb : ¬ c.1 = b := fun e => h (by omega)
      simp [Memory.erase, hc, Memory.read, ih, Ne.symm h]
    · simp [Memory.erase, hc, Memory.read, ih]

theorem read_erase_same (m : Memory) (a : Nat) : Memory.read (Memory.erase m a) a = Memory.unlisted := by
  induction m with
  | nil => rfl
  | cons c m ih =>
    by_cases hc : c.1 = a <;> simp [Memory.erase, hc, Memory.read, ih]

theorem read_place_other (m : Memory) (a b : Nat) (v : Byte) (h : b ≠ a) :
    Memory.read (Memory.place m a v) b = Memory.read m b := by
  induction m with
  | nil => simp [Memory.place, Memory.read, Ne.symm h]
  | cons c m ih =>
    by_cases hc : a < c.1 <;> simp [Memory.place, hc, Memory.read, ih, Ne.symm h]

theorem read_place_same (m : Memory) (a : Nat) (v : Byte) (h : ∀ c ∈ m, c.1 ≠ a) :
    Memory.read (Memory.place m a v) a = v := by
  induction m with
  | nil => simp [Memory.place, Memory.read]
  | cons c m ih =>
    have hc := h c (by simp)
    have ih := ih (fun d hd => h d (by simp [hd]))
    by_cases hlt : a < c.1 <;> simp [Memory.place, hlt, Memory.read, ih, hc]

/-- A read after a write to the same address gives the byte written. -/
@[simp] theorem read_write_same (m : Memory) (a : Nat) (v : Byte) : Memory.read (Memory.write m a v) a = v := by
  unfold Memory.write
  by_cases hv : v = Memory.unlisted
  · simp [hv, read_erase_same]
  · simp only [hv, if_false]
    exact read_place_same _ a v (erase_no_cell m a)

/-- A write leaves every other address alone. -/
theorem read_write_other (m : Memory) (a b : Nat) (v : Byte) (h : b ≠ a) :
    Memory.read (Memory.write m a v) b = Memory.read m b := by
  unfold Memory.write
  by_cases hv : v = Memory.unlisted
  · simpa [hv] using read_erase_other m a b h
  · simp only [hv, if_false]
    rw [read_place_other _ a b v h, read_erase_other m a b h]

/-- A run of writes leaves every address outside the run alone. -/
theorem read_writeRun_outside (vs : List Byte) (m : Memory) (a b : Nat) (h : ¬(a ≤ b ∧ b < a + vs.length)) :
    Memory.read (Memory.writeRun m a vs) b = Memory.read m b := by
  induction vs generalizing m a with
  | nil => rfl
  | cons v vs ih =>
    simp only [List.length_cons] at h
    rw [Memory.writeRun, ih _ _ (by omega), read_write_other _ _ _ _ (by omega)]

/-- After a run of writes, byte `k` of the run reads at `a + k`. -/
theorem read_writeRun_inside (vs : List Byte) (m : Memory) (a k : Nat) (h : k < vs.length) :
    Memory.read (Memory.writeRun m a vs) (a + k) = vs[k] := by
  induction vs generalizing m a k with
  | nil => simp at h
  | cons v vs ih =>
    rw [Memory.writeRun]
    cases k with
    | zero => rw [read_writeRun_outside _ _ _ _ (by omega)]; simp
    | succ k =>
      have := ih (Memory.write m a v) (a + 1) k (by simpa using h)
      rw [show a + (k + 1) = a + 1 + k by omega, this]; rfl

theorem wfFrom_mono (m : Memory) (lo lo' : Nat) (h : lo' ≤ lo) (hm : Memory.wfFrom lo m = true) :
    Memory.wfFrom lo' m = true := by
  cases m with
  | nil => rfl
  | cons c m =>
    simp only [Memory.wfFrom, Bool.and_eq_true, decide_eq_true_eq] at hm ⊢
    exact ⟨⟨⟨by omega, hm.1.1.2⟩, hm.1.2⟩, hm.2⟩

theorem wfFrom_erase (m : Memory) (a lo : Nat) (hm : Memory.wfFrom lo m = true) :
    Memory.wfFrom lo (Memory.erase m a) = true := by
  induction m generalizing lo with
  | nil => rfl
  | cons c m ih =>
    simp only [Memory.wfFrom, Bool.and_eq_true, decide_eq_true_eq] at hm
    by_cases hc : c.1 = a
    · simp only [Memory.erase, hc, if_true]
      exact wfFrom_mono _ _ _ (by omega) (ih (c.1 + 1) hm.2)
    · simp only [Memory.erase, hc, if_false, Memory.wfFrom, Bool.and_eq_true, decide_eq_true_eq]
      exact ⟨hm.1, ih (c.1 + 1) hm.2⟩

theorem wfFrom_place (m : Memory) (a : Nat) (v : Byte) (lo : Nat) (hm : Memory.wfFrom lo m = true)
    (hlo : lo ≤ a) (ha : a < addressSpace) (hv : v ≠ Memory.unlisted) (hn : ∀ c ∈ m, c.1 ≠ a) :
    Memory.wfFrom lo (Memory.place m a v) = true := by
  induction m generalizing lo with
  | nil => simp [Memory.place, Memory.wfFrom, hlo, ha, hv]
  | cons c m ih =>
    have hc : c.1 ≠ a := hn c (by simp)
    simp only [Memory.wfFrom, Bool.and_eq_true, decide_eq_true_eq] at hm
    by_cases hlt : a < c.1
    · simp only [Memory.place, hlt, if_true, Memory.wfFrom, Bool.and_eq_true, decide_eq_true_eq]
      exact ⟨⟨⟨hlo, ha⟩, hv⟩, ⟨⟨by omega, hm.1.1.2⟩, hm.1.2⟩, hm.2⟩
    · simp only [Memory.place, hlt, if_false, Memory.wfFrom, Bool.and_eq_true, decide_eq_true_eq]
      exact ⟨hm.1, ih (c.1 + 1) hm.2 (by omega) (fun d hd => hn d (by simp [hd]))⟩

/-- A write at an address that exists keeps memory in canonical form. -/
theorem wf_write (m : Memory) (a : Nat) (v : Byte) (ha : a < addressSpace) (hm : Memory.wf m = true) :
    Memory.wf (Memory.write m a v) = true := by
  unfold Memory.write
  by_cases hv : v = Memory.unlisted
  · rw [if_pos hv]; exact wfFrom_erase m a 0 hm
  · simp only [hv, if_false]
    exact wfFrom_place _ a v 0 (wfFrom_erase m a 0 hm) (Nat.zero_le a) ha hv (erase_no_cell m a)

/-- A run of writes that ends within the address space keeps memory in canonical form. -/
theorem wf_writeRun (vs : List Byte) (m : Memory) (a : Nat) (ha : a + vs.length ≤ addressSpace)
    (hm : Memory.wf m = true) : Memory.wf (Memory.writeRun m a vs) = true := by
  induction vs generalizing m a with
  | nil => exact hm
  | cons v vs ih =>
    simp only [List.length_cons] at ha
    exact ih _ _ (by omega) (wf_write m a v (by omega) hm)

/-- Reset memory lists nothing and is in canonical form. -/
theorem wf_reset : Memory.wf State.reset.mem = true := rfl

@[simp] theorem length_freeRun (d n : Nat) : (freeRun d n).length = n := by simp [freeRun]

theorem getElem_freeRun (d n k : Nat) (h : k < (freeRun d n).length) : (freeRun d n)[k] = Config.freeByte (d + k) := by
  simp [freeRun]

end Sys2Proof.Machine
end

