-- ==== Sys2Proof/Laws/State.lean ====
section
/-! SUPPORT. One lemma per field per update of State, so that no later proof unfolds a record update. -/

namespace Sys2Proof.Machine

@[simp] theorem respond_phase (v : Word) (s : State) : (respond v s).phase = s.phase := rfl
@[simp] theorem respond_filter (v : Word) (s : State) : (respond v s).filter = s.filter := rfl
@[simp] theorem respond_irqEn (v : Word) (s : State) : (respond v s).irqEn = s.irqEn := rfl
@[simp] theorem respond_done (v : Word) (s : State) : (respond v s).done = s.done := rfl
@[simp] theorem respond_err (v : Word) (s : State) : (respond v s).err = s.err := rfl
@[simp] theorem respond_errcode (v : Word) (s : State) : (respond v s).errcode = s.errcode := rfl
@[simp] theorem respond_srcAddr (v : Word) (s : State) : (respond v s).srcAddr = s.srcAddr := rfl
@[simp] theorem respond_srcW (v : Word) (s : State) : (respond v s).srcW = s.srcW := rfl
@[simp] theorem respond_srcH (v : Word) (s : State) : (respond v s).srcH = s.srcH := rfl
@[simp] theorem respond_maxDim (v : Word) (s : State) : (respond v s).maxDim = s.maxDim := rfl
@[simp] theorem respond_dstAddr (v : Word) (s : State) : (respond v s).dstAddr = s.dstAddr := rfl
@[simp] theorem respond_outW (v : Word) (s : State) : (respond v s).outW = s.outW := rfl
@[simp] theorem respond_outH (v : Word) (s : State) : (respond v s).outH = s.outH := rfl
@[simp] theorem respond_outLen (v : Word) (s : State) : (respond v s).outLen = s.outLen := rfl
@[simp] theorem respond_job (v : Word) (s : State) : (respond v s).job = s.job := rfl
@[simp] theorem respond_mem (v : Word) (s : State) : (respond v s).mem = s.mem := rfl
@[simp] theorem respond_rdata (v : Word) (s : State) : (respond v s).rdata = v := rfl
@[simp] theorem respond_hostByte (v : Word) (s : State) : (respond v s).hostByte = s.hostByte := rfl
@[simp] theorem respond_events (v : Word) (s : State) : (respond v s).events = s.events := rfl
@[simp] theorem respond_draws (v : Word) (s : State) : (respond v s).draws = s.draws := rfl
@[simp] theorem respond_config (v : Word) (s : State) : (respond v s).config = s.config := rfl

@[simp] theorem setCtrl_phase (f i : Bool) (s : State) : (setCtrl f i s).phase = s.phase := rfl
@[simp] theorem setCtrl_filter (f i : Bool) (s : State) : (setCtrl f i s).filter = f := rfl
@[simp] theorem setCtrl_irqEn (f i : Bool) (s : State) : (setCtrl f i s).irqEn = i := rfl
@[simp] theorem setCtrl_done (f i : Bool) (s : State) : (setCtrl f i s).done = s.done := rfl
@[simp] theorem setCtrl_err (f i : Bool) (s : State) : (setCtrl f i s).err = s.err := rfl
@[simp] theorem setCtrl_errcode (f i : Bool) (s : State) : (setCtrl f i s).errcode = s.errcode := rfl
@[simp] theorem setCtrl_srcAddr (f i : Bool) (s : State) : (setCtrl f i s).srcAddr = s.srcAddr := rfl
@[simp] theorem setCtrl_srcW (f i : Bool) (s : State) : (setCtrl f i s).srcW = s.srcW := rfl
@[simp] theorem setCtrl_srcH (f i : Bool) (s : State) : (setCtrl f i s).srcH = s.srcH := rfl
@[simp] theorem setCtrl_maxDim (f i : Bool) (s : State) : (setCtrl f i s).maxDim = s.maxDim := rfl
@[simp] theorem setCtrl_dstAddr (f i : Bool) (s : State) : (setCtrl f i s).dstAddr = s.dstAddr := rfl
@[simp] theorem setCtrl_outW (f i : Bool) (s : State) : (setCtrl f i s).outW = s.outW := rfl
@[simp] theorem setCtrl_outH (f i : Bool) (s : State) : (setCtrl f i s).outH = s.outH := rfl
@[simp] theorem setCtrl_outLen (f i : Bool) (s : State) : (setCtrl f i s).outLen = s.outLen := rfl
@[simp] theorem setCtrl_job (f i : Bool) (s : State) : (setCtrl f i s).job = s.job := rfl
@[simp] theorem setCtrl_mem (f i : Bool) (s : State) : (setCtrl f i s).mem = s.mem := rfl
@[simp] theorem setCtrl_rdata (f i : Bool) (s : State) : (setCtrl f i s).rdata = s.rdata := rfl
@[simp] theorem setCtrl_hostByte (f i : Bool) (s : State) : (setCtrl f i s).hostByte = s.hostByte := rfl
@[simp] theorem setCtrl_events (f i : Bool) (s : State) : (setCtrl f i s).events = s.events := rfl
@[simp] theorem setCtrl_draws (f i : Bool) (s : State) : (setCtrl f i s).draws = s.draws := rfl
@[simp] theorem setCtrl_config (f i : Bool) (s : State) : (setCtrl f i s).config = s.config := rfl

@[simp] theorem setSrcAddr_phase (v : Word) (s : State) : (setSrcAddr v s).phase = s.phase := rfl
@[simp] theorem setSrcAddr_filter (v : Word) (s : State) : (setSrcAddr v s).filter = s.filter := rfl
@[simp] theorem setSrcAddr_irqEn (v : Word) (s : State) : (setSrcAddr v s).irqEn = s.irqEn := rfl
@[simp] theorem setSrcAddr_done (v : Word) (s : State) : (setSrcAddr v s).done = s.done := rfl
@[simp] theorem setSrcAddr_err (v : Word) (s : State) : (setSrcAddr v s).err = s.err := rfl
@[simp] theorem setSrcAddr_errcode (v : Word) (s : State) : (setSrcAddr v s).errcode = s.errcode := rfl
@[simp] theorem setSrcAddr_srcAddr (v : Word) (s : State) : (setSrcAddr v s).srcAddr = v := rfl
@[simp] theorem setSrcAddr_srcW (v : Word) (s : State) : (setSrcAddr v s).srcW = s.srcW := rfl
@[simp] theorem setSrcAddr_srcH (v : Word) (s : State) : (setSrcAddr v s).srcH = s.srcH := rfl
@[simp] theorem setSrcAddr_maxDim (v : Word) (s : State) : (setSrcAddr v s).maxDim = s.maxDim := rfl
@[simp] theorem setSrcAddr_dstAddr (v : Word) (s : State) : (setSrcAddr v s).dstAddr = s.dstAddr := rfl
@[simp] theorem setSrcAddr_outW (v : Word) (s : State) : (setSrcAddr v s).outW = s.outW := rfl
@[simp] theorem setSrcAddr_outH (v : Word) (s : State) : (setSrcAddr v s).outH = s.outH := rfl
@[simp] theorem setSrcAddr_outLen (v : Word) (s : State) : (setSrcAddr v s).outLen = s.outLen := rfl
@[simp] theorem setSrcAddr_job (v : Word) (s : State) : (setSrcAddr v s).job = s.job := rfl
@[simp] theorem setSrcAddr_mem (v : Word) (s : State) : (setSrcAddr v s).mem = s.mem := rfl
@[simp] theorem setSrcAddr_rdata (v : Word) (s : State) : (setSrcAddr v s).rdata = s.rdata := rfl
@[simp] theorem setSrcAddr_hostByte (v : Word) (s : State) : (setSrcAddr v s).hostByte = s.hostByte := rfl
@[simp] theorem setSrcAddr_events (v : Word) (s : State) : (setSrcAddr v s).events = s.events := rfl
@[simp] theorem setSrcAddr_draws (v : Word) (s : State) : (setSrcAddr v s).draws = s.draws := rfl
@[simp] theorem setSrcAddr_config (v : Word) (s : State) : (setSrcAddr v s).config = s.config := rfl

@[simp] theorem setSrcSize_phase (w h : Half) (s : State) : (setSrcSize w h s).phase = s.phase := rfl
@[simp] theorem setSrcSize_filter (w h : Half) (s : State) : (setSrcSize w h s).filter = s.filter := rfl
@[simp] theorem setSrcSize_irqEn (w h : Half) (s : State) : (setSrcSize w h s).irqEn = s.irqEn := rfl
@[simp] theorem setSrcSize_done (w h : Half) (s : State) : (setSrcSize w h s).done = s.done := rfl
@[simp] theorem setSrcSize_err (w h : Half) (s : State) : (setSrcSize w h s).err = s.err := rfl
@[simp] theorem setSrcSize_errcode (w h : Half) (s : State) : (setSrcSize w h s).errcode = s.errcode := rfl
@[simp] theorem setSrcSize_srcAddr (w h : Half) (s : State) : (setSrcSize w h s).srcAddr = s.srcAddr := rfl
@[simp] theorem setSrcSize_srcW (w h : Half) (s : State) : (setSrcSize w h s).srcW = w := rfl
@[simp] theorem setSrcSize_srcH (w h : Half) (s : State) : (setSrcSize w h s).srcH = h := rfl
@[simp] theorem setSrcSize_maxDim (w h : Half) (s : State) : (setSrcSize w h s).maxDim = s.maxDim := rfl
@[simp] theorem setSrcSize_dstAddr (w h : Half) (s : State) : (setSrcSize w h s).dstAddr = s.dstAddr := rfl
@[simp] theorem setSrcSize_outW (w h : Half) (s : State) : (setSrcSize w h s).outW = s.outW := rfl
@[simp] theorem setSrcSize_outH (w h : Half) (s : State) : (setSrcSize w h s).outH = s.outH := rfl
@[simp] theorem setSrcSize_outLen (w h : Half) (s : State) : (setSrcSize w h s).outLen = s.outLen := rfl
@[simp] theorem setSrcSize_job (w h : Half) (s : State) : (setSrcSize w h s).job = s.job := rfl
@[simp] theorem setSrcSize_mem (w h : Half) (s : State) : (setSrcSize w h s).mem = s.mem := rfl
@[simp] theorem setSrcSize_rdata (w h : Half) (s : State) : (setSrcSize w h s).rdata = s.rdata := rfl
@[simp] theorem setSrcSize_hostByte (w h : Half) (s : State) : (setSrcSize w h s).hostByte = s.hostByte := rfl
@[simp] theorem setSrcSize_events (w h : Half) (s : State) : (setSrcSize w h s).events = s.events := rfl
@[simp] theorem setSrcSize_draws (w h : Half) (s : State) : (setSrcSize w h s).draws = s.draws := rfl
@[simp] theorem setSrcSize_config (w h : Half) (s : State) : (setSrcSize w h s).config = s.config := rfl

@[simp] theorem setMaxDim_phase (m : Half) (s : State) : (setMaxDim m s).phase = s.phase := rfl
@[simp] theorem setMaxDim_filter (m : Half) (s : State) : (setMaxDim m s).filter = s.filter := rfl
@[simp] theorem setMaxDim_irqEn (m : Half) (s : State) : (setMaxDim m s).irqEn = s.irqEn := rfl
@[simp] theorem setMaxDim_done (m : Half) (s : State) : (setMaxDim m s).done = s.done := rfl
@[simp] theorem setMaxDim_err (m : Half) (s : State) : (setMaxDim m s).err = s.err := rfl
@[simp] theorem setMaxDim_errcode (m : Half) (s : State) : (setMaxDim m s).errcode = s.errcode := rfl
@[simp] theorem setMaxDim_srcAddr (m : Half) (s : State) : (setMaxDim m s).srcAddr = s.srcAddr := rfl
@[simp] theorem setMaxDim_srcW (m : Half) (s : State) : (setMaxDim m s).srcW = s.srcW := rfl
@[simp] theorem setMaxDim_srcH (m : Half) (s : State) : (setMaxDim m s).srcH = s.srcH := rfl
@[simp] theorem setMaxDim_maxDim (m : Half) (s : State) : (setMaxDim m s).maxDim = m := rfl
@[simp] theorem setMaxDim_dstAddr (m : Half) (s : State) : (setMaxDim m s).dstAddr = s.dstAddr := rfl
@[simp] theorem setMaxDim_outW (m : Half) (s : State) : (setMaxDim m s).outW = s.outW := rfl
@[simp] theorem setMaxDim_outH (m : Half) (s : State) : (setMaxDim m s).outH = s.outH := rfl
@[simp] theorem setMaxDim_outLen (m : Half) (s : State) : (setMaxDim m s).outLen = s.outLen := rfl
@[simp] theorem setMaxDim_job (m : Half) (s : State) : (setMaxDim m s).job = s.job := rfl
@[simp] theorem setMaxDim_mem (m : Half) (s : State) : (setMaxDim m s).mem = s.mem := rfl
@[simp] theorem setMaxDim_rdata (m : Half) (s : State) : (setMaxDim m s).rdata = s.rdata := rfl
@[simp] theorem setMaxDim_hostByte (m : Half) (s : State) : (setMaxDim m s).hostByte = s.hostByte := rfl
@[simp] theorem setMaxDim_events (m : Half) (s : State) : (setMaxDim m s).events = s.events := rfl
@[simp] theorem setMaxDim_draws (m : Half) (s : State) : (setMaxDim m s).draws = s.draws := rfl
@[simp] theorem setMaxDim_config (m : Half) (s : State) : (setMaxDim m s).config = s.config := rfl

@[simp] theorem setDstAddr_phase (v : Word) (s : State) : (setDstAddr v s).phase = s.phase := rfl
@[simp] theorem setDstAddr_filter (v : Word) (s : State) : (setDstAddr v s).filter = s.filter := rfl
@[simp] theorem setDstAddr_irqEn (v : Word) (s : State) : (setDstAddr v s).irqEn = s.irqEn := rfl
@[simp] theorem setDstAddr_done (v : Word) (s : State) : (setDstAddr v s).done = s.done := rfl
@[simp] theorem setDstAddr_err (v : Word) (s : State) : (setDstAddr v s).err = s.err := rfl
@[simp] theorem setDstAddr_errcode (v : Word) (s : State) : (setDstAddr v s).errcode = s.errcode := rfl
@[simp] theorem setDstAddr_srcAddr (v : Word) (s : State) : (setDstAddr v s).srcAddr = s.srcAddr := rfl
@[simp] theorem setDstAddr_srcW (v : Word) (s : State) : (setDstAddr v s).srcW = s.srcW := rfl
@[simp] theorem setDstAddr_srcH (v : Word) (s : State) : (setDstAddr v s).srcH = s.srcH := rfl
@[simp] theorem setDstAddr_maxDim (v : Word) (s : State) : (setDstAddr v s).maxDim = s.maxDim := rfl
@[simp] theorem setDstAddr_dstAddr (v : Word) (s : State) : (setDstAddr v s).dstAddr = v := rfl
@[simp] theorem setDstAddr_outW (v : Word) (s : State) : (setDstAddr v s).outW = s.outW := rfl
@[simp] theorem setDstAddr_outH (v : Word) (s : State) : (setDstAddr v s).outH = s.outH := rfl
@[simp] theorem setDstAddr_outLen (v : Word) (s : State) : (setDstAddr v s).outLen = s.outLen := rfl
@[simp] theorem setDstAddr_job (v : Word) (s : State) : (setDstAddr v s).job = s.job := rfl
@[simp] theorem setDstAddr_mem (v : Word) (s : State) : (setDstAddr v s).mem = s.mem := rfl
@[simp] theorem setDstAddr_rdata (v : Word) (s : State) : (setDstAddr v s).rdata = s.rdata := rfl
@[simp] theorem setDstAddr_hostByte (v : Word) (s : State) : (setDstAddr v s).hostByte = s.hostByte := rfl
@[simp] theorem setDstAddr_events (v : Word) (s : State) : (setDstAddr v s).events = s.events := rfl
@[simp] theorem setDstAddr_draws (v : Word) (s : State) : (setDstAddr v s).draws = s.draws := rfl
@[simp] theorem setDstAddr_config (v : Word) (s : State) : (setDstAddr v s).config = s.config := rfl

@[simp] theorem acknowledge_phase (d e : Bool) (s : State) : (acknowledge d e s).phase = s.phase := rfl
@[simp] theorem acknowledge_filter (d e : Bool) (s : State) : (acknowledge d e s).filter = s.filter := rfl
@[simp] theorem acknowledge_irqEn (d e : Bool) (s : State) : (acknowledge d e s).irqEn = s.irqEn := rfl
@[simp] theorem acknowledge_done (d e : Bool) (s : State) : (acknowledge d e s).done = w1c s.done d := rfl
@[simp] theorem acknowledge_err (d e : Bool) (s : State) : (acknowledge d e s).err = w1c s.err e := rfl
@[simp] theorem acknowledge_errcode (d e : Bool) (s : State) : (acknowledge d e s).errcode = s.errcode := rfl
@[simp] theorem acknowledge_srcAddr (d e : Bool) (s : State) : (acknowledge d e s).srcAddr = s.srcAddr := rfl
@[simp] theorem acknowledge_srcW (d e : Bool) (s : State) : (acknowledge d e s).srcW = s.srcW := rfl
@[simp] theorem acknowledge_srcH (d e : Bool) (s : State) : (acknowledge d e s).srcH = s.srcH := rfl
@[simp] theorem acknowledge_maxDim (d e : Bool) (s : State) : (acknowledge d e s).maxDim = s.maxDim := rfl
@[simp] theorem acknowledge_dstAddr (d e : Bool) (s : State) : (acknowledge d e s).dstAddr = s.dstAddr := rfl
@[simp] theorem acknowledge_outW (d e : Bool) (s : State) : (acknowledge d e s).outW = s.outW := rfl
@[simp] theorem acknowledge_outH (d e : Bool) (s : State) : (acknowledge d e s).outH = s.outH := rfl
@[simp] theorem acknowledge_outLen (d e : Bool) (s : State) : (acknowledge d e s).outLen = s.outLen := rfl
@[simp] theorem acknowledge_job (d e : Bool) (s : State) : (acknowledge d e s).job = s.job := rfl
@[simp] theorem acknowledge_mem (d e : Bool) (s : State) : (acknowledge d e s).mem = s.mem := rfl
@[simp] theorem acknowledge_rdata (d e : Bool) (s : State) : (acknowledge d e s).rdata = s.rdata := rfl
@[simp] theorem acknowledge_hostByte (d e : Bool) (s : State) : (acknowledge d e s).hostByte = s.hostByte := rfl
@[simp] theorem acknowledge_events (d e : Bool) (s : State) : (acknowledge d e s).events = s.events := rfl
@[simp] theorem acknowledge_draws (d e : Bool) (s : State) : (acknowledge d e s).draws = s.draws := rfl
@[simp] theorem acknowledge_config (d e : Bool) (s : State) : (acknowledge d e s).config = s.config := rfl

@[simp] theorem spendChoice_phase (s : State) : (spendChoice s).phase = s.phase := rfl
@[simp] theorem spendChoice_filter (s : State) : (spendChoice s).filter = s.filter := rfl
@[simp] theorem spendChoice_irqEn (s : State) : (spendChoice s).irqEn = s.irqEn := rfl
@[simp] theorem spendChoice_done (s : State) : (spendChoice s).done = s.done := rfl
@[simp] theorem spendChoice_err (s : State) : (spendChoice s).err = s.err := rfl
@[simp] theorem spendChoice_errcode (s : State) : (spendChoice s).errcode = s.errcode := rfl
@[simp] theorem spendChoice_srcAddr (s : State) : (spendChoice s).srcAddr = s.srcAddr := rfl
@[simp] theorem spendChoice_srcW (s : State) : (spendChoice s).srcW = s.srcW := rfl
@[simp] theorem spendChoice_srcH (s : State) : (spendChoice s).srcH = s.srcH := rfl
@[simp] theorem spendChoice_maxDim (s : State) : (spendChoice s).maxDim = s.maxDim := rfl
@[simp] theorem spendChoice_dstAddr (s : State) : (spendChoice s).dstAddr = s.dstAddr := rfl
@[simp] theorem spendChoice_outW (s : State) : (spendChoice s).outW = s.outW := rfl
@[simp] theorem spendChoice_outH (s : State) : (spendChoice s).outH = s.outH := rfl
@[simp] theorem spendChoice_outLen (s : State) : (spendChoice s).outLen = s.outLen := rfl
@[simp] theorem spendChoice_job (s : State) : (spendChoice s).job = s.job := rfl
@[simp] theorem spendChoice_mem (s : State) : (spendChoice s).mem = s.mem := rfl
@[simp] theorem spendChoice_rdata (s : State) : (spendChoice s).rdata = s.rdata := rfl
@[simp] theorem spendChoice_hostByte (s : State) : (spendChoice s).hostByte = s.hostByte := rfl
@[simp] theorem spendChoice_events (s : State) : (spendChoice s).events = s.events := rfl
@[simp] theorem spendChoice_draws (s : State) : (spendChoice s).draws = s.draws + 1 := rfl
@[simp] theorem spendChoice_config (s : State) : (spendChoice s).config = s.config := rfl

@[simp] theorem dropEvent_phase (s : State) : (dropEvent s).phase = s.phase := rfl
@[simp] theorem dropEvent_filter (s : State) : (dropEvent s).filter = s.filter := rfl
@[simp] theorem dropEvent_irqEn (s : State) : (dropEvent s).irqEn = s.irqEn := rfl
@[simp] theorem dropEvent_done (s : State) : (dropEvent s).done = s.done := rfl
@[simp] theorem dropEvent_err (s : State) : (dropEvent s).err = s.err := rfl
@[simp] theorem dropEvent_errcode (s : State) : (dropEvent s).errcode = s.errcode := rfl
@[simp] theorem dropEvent_srcAddr (s : State) : (dropEvent s).srcAddr = s.srcAddr := rfl
@[simp] theorem dropEvent_srcW (s : State) : (dropEvent s).srcW = s.srcW := rfl
@[simp] theorem dropEvent_srcH (s : State) : (dropEvent s).srcH = s.srcH := rfl
@[simp] theorem dropEvent_maxDim (s : State) : (dropEvent s).maxDim = s.maxDim := rfl
@[simp] theorem dropEvent_dstAddr (s : State) : (dropEvent s).dstAddr = s.dstAddr := rfl
@[simp] theorem dropEvent_outW (s : State) : (dropEvent s).outW = s.outW := rfl
@[simp] theorem dropEvent_outH (s : State) : (dropEvent s).outH = s.outH := rfl
@[simp] theorem dropEvent_outLen (s : State) : (dropEvent s).outLen = s.outLen := rfl
@[simp] theorem dropEvent_job (s : State) : (dropEvent s).job = s.job := rfl
@[simp] theorem dropEvent_mem (s : State) : (dropEvent s).mem = s.mem := rfl
@[simp] theorem dropEvent_rdata (s : State) : (dropEvent s).rdata = s.rdata := rfl
@[simp] theorem dropEvent_hostByte (s : State) : (dropEvent s).hostByte = s.hostByte := rfl
@[simp] theorem dropEvent_events (s : State) : (dropEvent s).events = s.events.tail := rfl
@[simp] theorem dropEvent_draws (s : State) : (dropEvent s).draws = s.draws := rfl
@[simp] theorem dropEvent_config (s : State) : (dropEvent s).config = s.config := rfl

@[simp] theorem publish_phase (w h : Nat) (bytes : List Byte) (s : State) : (publish w h bytes s).phase = .idle := rfl
@[simp] theorem publish_filter (w h : Nat) (bytes : List Byte) (s : State) : (publish w h bytes s).filter = s.filter := rfl
@[simp] theorem publish_irqEn (w h : Nat) (bytes : List Byte) (s : State) : (publish w h bytes s).irqEn = s.irqEn := rfl
@[simp] theorem publish_done (w h : Nat) (bytes : List Byte) (s : State) : (publish w h bytes s).done = true := rfl
@[simp] theorem publish_err (w h : Nat) (bytes : List Byte) (s : State) : (publish w h bytes s).err = s.err := rfl
@[simp] theorem publish_errcode (w h : Nat) (bytes : List Byte) (s : State) : (publish w h bytes s).errcode = s.errcode := rfl
@[simp] theorem publish_srcAddr (w h : Nat) (bytes : List Byte) (s : State) : (publish w h bytes s).srcAddr = s.srcAddr := rfl
@[simp] theorem publish_srcW (w h : Nat) (bytes : List Byte) (s : State) : (publish w h bytes s).srcW = s.srcW := rfl
@[simp] theorem publish_srcH (w h : Nat) (bytes : List Byte) (s : State) : (publish w h bytes s).srcH = s.srcH := rfl
@[simp] theorem publish_maxDim (w h : Nat) (bytes : List Byte) (s : State) : (publish w h bytes s).maxDim = s.maxDim := rfl
@[simp] theorem publish_dstAddr (w h : Nat) (bytes : List Byte) (s : State) : (publish w h bytes s).dstAddr = s.dstAddr := rfl
@[simp] theorem publish_outW (w h : Nat) (bytes : List Byte) (s : State) : (publish w h bytes s).outW = BitVec.ofNat 32 w := rfl
@[simp] theorem publish_outH (w h : Nat) (bytes : List Byte) (s : State) : (publish w h bytes s).outH = BitVec.ofNat 32 h := rfl
@[simp] theorem publish_outLen (w h : Nat) (bytes : List Byte) (s : State) : (publish w h bytes s).outLen = BitVec.ofNat 32 bytes.length := rfl
@[simp] theorem publish_job (w h : Nat) (bytes : List Byte) (s : State) : (publish w h bytes s).job = s.job := rfl
@[simp] theorem publish_mem (w h : Nat) (bytes : List Byte) (s : State) : (publish w h bytes s).mem = Memory.writeRun s.mem s.job.dst.toNat bytes := rfl
@[simp] theorem publish_rdata (w h : Nat) (bytes : List Byte) (s : State) : (publish w h bytes s).rdata = s.rdata := rfl
@[simp] theorem publish_hostByte (w h : Nat) (bytes : List Byte) (s : State) : (publish w h bytes s).hostByte = s.hostByte := rfl
@[simp] theorem publish_events (w h : Nat) (bytes : List Byte) (s : State) : (publish w h bytes s).events = s.events := rfl
@[simp] theorem publish_draws (w h : Nat) (bytes : List Byte) (s : State) : (publish w h bytes s).draws = s.draws := rfl
@[simp] theorem publish_config (w h : Nat) (bytes : List Byte) (s : State) : (publish w h bytes s).config = s.config := rfl

@[simp] theorem scrambleDst_phase (s : State) : (scrambleDst s).phase = s.phase := by
  unfold scrambleDst; split <;> rfl
@[simp] theorem scrambleDst_filter (s : State) : (scrambleDst s).filter = s.filter := by
  unfold scrambleDst; split <;> rfl
@[simp] theorem scrambleDst_irqEn (s : State) : (scrambleDst s).irqEn = s.irqEn := by
  unfold scrambleDst; split <;> rfl
@[simp] theorem scrambleDst_done (s : State) : (scrambleDst s).done = s.done := by
  unfold scrambleDst; split <;> rfl
@[simp] theorem scrambleDst_err (s : State) : (scrambleDst s).err = s.err := by
  unfold scrambleDst; split <;> rfl
@[simp] theorem scrambleDst_errcode (s : State) : (scrambleDst s).errcode = s.errcode := by
  unfold scrambleDst; split <;> rfl
@[simp] theorem scrambleDst_srcAddr (s : State) : (scrambleDst s).srcAddr = s.srcAddr := by
  unfold scrambleDst; split <;> rfl
@[simp] theorem scrambleDst_srcW (s : State) : (scrambleDst s).srcW = s.srcW := by
  unfold scrambleDst; split <;> rfl
@[simp] theorem scrambleDst_srcH (s : State) : (scrambleDst s).srcH = s.srcH := by
  unfold scrambleDst; split <;> rfl
@[simp] theorem scrambleDst_maxDim (s : State) : (scrambleDst s).maxDim = s.maxDim := by
  unfold scrambleDst; split <;> rfl
@[simp] theorem scrambleDst_dstAddr (s : State) : (scrambleDst s).dstAddr = s.dstAddr := by
  unfold scrambleDst; split <;> rfl
@[simp] theorem scrambleDst_outW (s : State) : (scrambleDst s).outW = s.outW := by
  unfold scrambleDst; split <;> rfl
@[simp] theorem scrambleDst_outH (s : State) : (scrambleDst s).outH = s.outH := by
  unfold scrambleDst; split <;> rfl
@[simp] theorem scrambleDst_outLen (s : State) : (scrambleDst s).outLen = s.outLen := by
  unfold scrambleDst; split <;> rfl
@[simp] theorem scrambleDst_job (s : State) : (scrambleDst s).job = s.job := by
  unfold scrambleDst; split <;> rfl
@[simp] theorem scrambleDst_rdata (s : State) : (scrambleDst s).rdata = s.rdata := by
  unfold scrambleDst; split <;> rfl
@[simp] theorem scrambleDst_hostByte (s : State) : (scrambleDst s).hostByte = s.hostByte := by
  unfold scrambleDst; split <;> rfl
@[simp] theorem scrambleDst_events (s : State) : (scrambleDst s).events = s.events := by
  unfold scrambleDst; split <;> rfl
@[simp] theorem scrambleDst_config (s : State) : (scrambleDst s).config = s.config := by
  unfold scrambleDst; split <;> rfl

@[simp] theorem errorEntry_phase (c : ErrCode) (s : State) : (errorEntry c s).phase = .idle := rfl
@[simp] theorem errorEntry_filter (c : ErrCode) (s : State) : (errorEntry c s).filter = s.filter := by
  unfold errorEntry; split <;> simp
@[simp] theorem errorEntry_irqEn (c : ErrCode) (s : State) : (errorEntry c s).irqEn = s.irqEn := by
  unfold errorEntry; split <;> simp
@[simp] theorem errorEntry_done (c : ErrCode) (s : State) : (errorEntry c s).done = s.done := by
  unfold errorEntry; split <;> simp
@[simp] theorem errorEntry_err (c : ErrCode) (s : State) : (errorEntry c s).err = true := rfl
@[simp] theorem errorEntry_errcode (c : ErrCode) (s : State) : (errorEntry c s).errcode = ErrCode.code c := rfl
@[simp] theorem errorEntry_srcAddr (c : ErrCode) (s : State) : (errorEntry c s).srcAddr = s.srcAddr := by
  unfold errorEntry; split <;> simp
@[simp] theorem errorEntry_srcW (c : ErrCode) (s : State) : (errorEntry c s).srcW = s.srcW := by
  unfold errorEntry; split <;> simp
@[simp] theorem errorEntry_srcH (c : ErrCode) (s : State) : (errorEntry c s).srcH = s.srcH := by
  unfold errorEntry; split <;> simp
@[simp] theorem errorEntry_maxDim (c : ErrCode) (s : State) : (errorEntry c s).maxDim = s.maxDim := by
  unfold errorEntry; split <;> simp
@[simp] theorem errorEntry_dstAddr (c : ErrCode) (s : State) : (errorEntry c s).dstAddr = s.dstAddr := by
  unfold errorEntry; split <;> simp
@[simp] theorem errorEntry_outW (c : ErrCode) (s : State) : (errorEntry c s).outW = s.outW := by
  unfold errorEntry; split <;> simp
@[simp] theorem errorEntry_outH (c : ErrCode) (s : State) : (errorEntry c s).outH = s.outH := by
  unfold errorEntry; split <;> simp
@[simp] theorem errorEntry_outLen (c : ErrCode) (s : State) : (errorEntry c s).outLen = s.outLen := by
  unfold errorEntry; split <;> simp
@[simp] theorem errorEntry_job (c : ErrCode) (s : State) : (errorEntry c s).job = s.job := by
  unfold errorEntry; split <;> simp
@[simp] theorem errorEntry_rdata (c : ErrCode) (s : State) : (errorEntry c s).rdata = s.rdata := by
  unfold errorEntry; split <;> simp
@[simp] theorem errorEntry_hostByte (c : ErrCode) (s : State) : (errorEntry c s).hostByte = s.hostByte := by
  unfold errorEntry; split <;> simp
@[simp] theorem errorEntry_events (c : ErrCode) (s : State) : (errorEntry c s).events = s.events := by
  unfold errorEntry; split <;> simp
@[simp] theorem errorEntry_config (c : ErrCode) (s : State) : (errorEntry c s).config = s.config := by
  unfold errorEntry; split <;> simp

/-- Only BUS_ERROR touches memory (60 R269). -/
theorem errorEntry_mem_of_check (c : ErrCode) (h : c ≠ .busError) (s : State) : (errorEntry c s).mem = s.mem := by
  simp [errorEntry, h]

@[simp] theorem resetBlock_phase (s : State) : (resetBlock s).phase = State.reset.phase := rfl
@[simp] theorem resetBlock_filter (s : State) : (resetBlock s).filter = State.reset.filter := rfl
@[simp] theorem resetBlock_irqEn (s : State) : (resetBlock s).irqEn = State.reset.irqEn := rfl
@[simp] theorem resetBlock_done (s : State) : (resetBlock s).done = State.reset.done := rfl
@[simp] theorem resetBlock_err (s : State) : (resetBlock s).err = State.reset.err := rfl
@[simp] theorem resetBlock_errcode (s : State) : (resetBlock s).errcode = State.reset.errcode := rfl
@[simp] theorem resetBlock_srcAddr (s : State) : (resetBlock s).srcAddr = State.reset.srcAddr := rfl
@[simp] theorem resetBlock_srcW (s : State) : (resetBlock s).srcW = State.reset.srcW := rfl
@[simp] theorem resetBlock_srcH (s : State) : (resetBlock s).srcH = State.reset.srcH := rfl
@[simp] theorem resetBlock_maxDim (s : State) : (resetBlock s).maxDim = State.reset.maxDim := rfl
@[simp] theorem resetBlock_dstAddr (s : State) : (resetBlock s).dstAddr = State.reset.dstAddr := rfl
@[simp] theorem resetBlock_outW (s : State) : (resetBlock s).outW = State.reset.outW := rfl
@[simp] theorem resetBlock_outH (s : State) : (resetBlock s).outH = State.reset.outH := rfl
@[simp] theorem resetBlock_outLen (s : State) : (resetBlock s).outLen = State.reset.outLen := rfl
@[simp] theorem resetBlock_rdata (s : State) : (resetBlock s).rdata = s.rdata := by
  unfold resetBlock; dsimp only; split <;> simp
@[simp] theorem resetBlock_hostByte (s : State) : (resetBlock s).hostByte = s.hostByte := by
  unfold resetBlock; dsimp only; split <;> simp
@[simp] theorem resetBlock_events (s : State) : (resetBlock s).events = s.events := by
  unfold resetBlock; dsimp only; split <;> simp
@[simp] theorem resetBlock_config (s : State) : (resetBlock s).config = s.config := by
  unfold resetBlock; dsimp only; split <;> simp

end Sys2Proof.Machine
end

