-- ==== Sys2Proof/Laws/Ops.lean ====
section
/-! SUPPORT. What each shared operation can do, said once: job start, error entry, free bytes over DST_REGION, publishing a
result, the host's own accesses, the transactions as a whole, the completion step and the step. -/

namespace Sys2Proof.Machine

/-- Job start in IDLE (40 R125). -/
theorem startJob_idle (s : State) (h : s.phase = .idle) :
    startJob s = { s with job := latchedJob s, done := false, err := false, errcode := 0#4,
                          outW := 0#32, outH := 0#32, outLen := 0#32, phase := .busy } := by
  simp [startJob, h]

/-- Job start in BUSY: nothing further (40 R125). -/
theorem startJob_busy (s : State) (h : s.phase = .busy) : startJob s = s := by
  simp [startJob, h]

/-- Job start, both cases. -/
theorem startJob_cases (s : State) :
    (s.phase = .busy ∧ startJob s = s) ∨
    (s.phase = .idle ∧
      startJob s = { s with job := latchedJob s, done := false, err := false, errcode := 0#4,
                            outW := 0#32, outH := 0#32, outLen := 0#32, phase := .busy }) := by
  cases h : s.phase
  · exact .inr ⟨rfl, startJob_idle s h⟩
  · exact .inl ⟨rfl, startJob_busy s h⟩

/-- Job start touches neither memory nor the host, the events, the free values and the parameters. -/
theorem startJob_frame (s : State) :
    (startJob s).mem = s.mem ∧ (startJob s).rdata = s.rdata ∧ (startJob s).hostByte = s.hostByte ∧
    (startJob s).events = s.events ∧ (startJob s).draws = s.draws ∧ (startJob s).config = s.config ∧
    (startJob s).filter = s.filter ∧ (startJob s).irqEn = s.irqEn ∧ (startJob s).srcAddr = s.srcAddr ∧
    (startJob s).srcW = s.srcW ∧ (startJob s).srcH = s.srcH ∧ (startJob s).maxDim = s.maxDim ∧
    (startJob s).dstAddr = s.dstAddr := by
  rcases startJob_cases s with ⟨_, h⟩ | ⟨_, h⟩ <;> simp [h]

/-- Error entry with a code that is no BUS_ERROR changes ERR, ERRCODE and PHASE and nothing else (60 R269, R270). -/
theorem errorEntry_of_check (c : ErrCode) (h : c ≠ .busError) (s : State) :
    errorEntry c s = { s with err := true, errcode := ErrCode.code c, phase := .idle } := by
  simp [errorEntry, h]

/-- Free bytes over DST_REGION leave every byte outside it alone (60 R269). -/
theorem scrambleDst_outside (s : State) :
    SameOutside (dstRegion s.job).lo (dstRegion s.job).hi s.mem (scrambleDst s).mem := by
  intro a ha
  unfold scrambleDst
  split
  · exact read_writeRun_outside _ _ _ _ (by simpa [dstRegion] using ha)
  · rfl

/-- A job that fails a check has no DST_REGION, so no byte changes (20_memory R65). -/
theorem scrambleDst_of_check (s : State) (h : (checkJob s.job).isSome) : scrambleDst s = s := by
  unfold scrambleDst
  split
  · simp_all
  · rfl

/-- A job that passed its checks ends within the address space (20_memory R69). -/
theorem region_end_of_check (j : Job) (h : checkJob j = none) :
    (srcRegion j).hi ≤ addressSpace ∧ (dstRegion j).hi ≤ addressSpace := by
  unfold checkJob at h
  split at h
  · simp at h
  · split at h
    · simp at h
    · split at h
      · simp at h
      · rename_i hr
        simp only [hasAddrRange, Bool.or_eq_true, decide_eq_true_eq, not_or] at hr
        omega

theorem scrambleDst_wf (s : State) (h : Memory.wf s.mem = true) : Memory.wf (scrambleDst s).mem = true := by
  unfold scrambleDst
  split
  · rename_i hc
    refine wf_writeRun _ _ _ ?_ h
    have := (region_end_of_check s.job hc).2
    simpa [dstRegion] using this
  · exact h

/-- Error entry keeps memory in canonical form. -/
theorem errorEntry_wf (c : ErrCode) (s : State) (h : Memory.wf s.mem = true) :
    Memory.wf (errorEntry c s).mem = true := by
  unfold errorEntry
  split
  · exact scrambleDst_wf s h
  · exact h

/-- The reset event keeps memory in canonical form. -/
theorem resetBlock_wf (s : State) (h : Memory.wf s.mem = true) : Memory.wf (resetBlock s).mem = true := by
  unfold resetBlock
  dsimp only
  split
  · exact scrambleDst_wf s h
  · exact h

/-- Every byte string a job packs has LEN bytes (43 R213). -/
@[simp] theorem length_packBytes (n : Nat) (f : Nat → Nibble) : (packBytes n f).length = n := by
  simp [packBytes]

theorem getElem_packBytes (n : Nat) (f : Nat → Nibble) (k : Nat) (h : k < (packBytes n f).length) :
    (packBytes n f)[k] = packByte (f (2 * k)) (f (2 * k + 1)) := by
  simp [packBytes]

@[simp] theorem length_jobBytes (arith : LumaArith) (j : Job) (m : Memory) (w h : Nat) :
    (jobBytes arith j m w h).length = packedLen (w, h) := by
  simp [jobBytes]

/-- RunJob, everything it can answer (44 R232). -/
theorem runJob_cases (c : Config) (j : Job) (m : Memory) (choice : Bool) :
    (∃ e, checkJob j = some e ∧ runJob c j m choice = .err e) ∨
    (checkJob j = none ∧ busVerdict c j ≠ .clean ∧ runJob c j m choice = .err .busError) ∨
    (checkJob j = none ∧ busVerdict c j ≠ .fails ∧
      runJob c j m choice =
        .ok (jobDims j).1 (jobDims j).2 (jobBytes c.lumaArith j m (jobDims j).1 (jobDims j).2)) := by
  unfold runJob
  cases hc : checkJob j with
  | some e => exact .inl ⟨e, rfl, rfl⟩
  | none =>
    right
    cases hb : busVerdict c j with
    | fails => exact .inl ⟨rfl, by simp, rfl⟩
    | clean => exact .inr ⟨rfl, by simp, rfl⟩
    | mayFail => cases choice <;> simp

/-- A job never ends with an error code of its checks after it passed them: the memory of the next state, by outcome. -/
theorem completionStep_cases (s t : State) (h : completionStep s = .next t) :
    regionsNormal s.config s.job = true ∧
    ((∃ e, checkJob s.job = some e ∧ t = errorEntry e (spendChoice s)) ∨
     (checkJob s.job = none ∧ busVerdict s.config s.job ≠ .clean ∧ t = errorEntry .busError (spendChoice s)) ∨
     (checkJob s.job = none ∧ busVerdict s.config s.job ≠ .fails ∧
       t = publish (jobDims s.job).1 (jobDims s.job).2
             (jobBytes s.config.lumaArith s.job s.mem (jobDims s.job).1 (jobDims s.job).2) (spendChoice s))) := by
  unfold completionStep at h
  split at h
  · rename_i hr
    refine ⟨hr, ?_⟩
    simp only [Host.Outcome.next.injEq] at h
    subst h
    rcases runJob_cases s.config s.job s.mem (Config.freeChoice s.draws) with ⟨e, hc, hj⟩ | ⟨hc, hb, hj⟩ | ⟨hc, hb, hj⟩
    · exact .inl ⟨e, hc, by rw [hj]; rfl⟩
    · exact .inr (.inl ⟨hc, hb, by rw [hj]; rfl⟩)
    · exact .inr (.inr ⟨hc, hb, by rw [hj]; rfl⟩)
  · simp at h

/-- Memory that can be normal for a job: the completion step goes on. -/
theorem completionStep_goes_on (s : State) (h : regionsNormal s.config s.job = true) : GoesOn (completionStep s) := by
  simp [completionStep, h, GoesOn]

/-- The engine's turn (44 R240). -/
theorem engineTurn_cases (s t : State) (h : engineTurn s = .next t) :
    (s.phase = .idle ∧ t = s) ∨ (s.phase = .busy ∧ completionStep s = .next t) := by
  unfold engineTurn at h
  cases hp : s.phase with
  | idle => simp [hp] at h; exact .inl ⟨rfl, h.symm⟩
  | busy => simp [hp] at h; exact .inr ⟨rfl, h⟩

/-- The reset event, where it goes on (70 R300). -/
theorem resetTurn_next (s t : State) (h : resetTurn s = .next t) : t = resetBlock s := by
  unfold resetTurn at h
  split at h
  · simp at h
  · simpa using h.symm

/-- The host's own write, where it goes on (20_memory R79). -/
theorem hostWriteTurn_next (a : Nat) (v : Byte) (s t : State) (h : hostWriteTurn a v s = .next t) :
    a < addressSpace ∧ isDevice s.config a = false ∧ ¬(s.phase = .busy ∧ inRegions s.job a = true) ∧
    t = { s with mem := Memory.write s.mem a v } := by
  unfold hostWriteTurn at h
  split at h
  · simp at h
  · split at h
    · simp at h
    · split at h
      · simp at h
      · rename_i h1 h2 h3
        exact ⟨by omega, by simpa using h2, h3, by simpa using h.symm⟩

/-- The host's own read, where it goes on (20_memory R74). -/
theorem hostReadTurn_next (a : Nat) (s t : State) (h : hostReadTurn a s = .next t) :
    a < addressSpace ∧ isDevice s.config a = false ∧
    ((s.phase = .busy ∧ inDstRegion s.job a = true ∧
        t = { s with hostByte := Config.freeByte s.draws, draws := s.draws + 1 }) ∨
     (¬(s.phase = .busy ∧ inDstRegion s.job a = true) ∧ t = { s with hostByte := Memory.read s.mem a })) := by
  unfold hostReadTurn at h
  split at h
  · simp at h
  · split at h
    · simp at h
    · rename_i h1 h2
      refine ⟨by omega, by simpa using h2, ?_⟩
      split at h
      · rename_i h3; exact .inl ⟨h3.1, h3.2, by simpa using h.symm⟩
      · rename_i h3; exact .inr ⟨h3, by simpa using h.symm⟩

/-- A step with no event left is the engine's turn (44 R239). -/
theorem step_of_no_event (s : State) (h : s.events = []) : step s = engineTurn s := by
  simp [step, h]

/-- A step with an event left runs that event (40 R146). -/
theorem step_of_event (s : State) (e : Event) (es : List Event) (h : s.events = e :: es) :
    step s = runEvent e (dropEvent s) := by
  simp [step, h]

/-- The step, everything it can do. -/
theorem step_cases (s t : State) (h : step s = .next t) :
    (s.events = [] ∧ engineTurn s = .next t) ∨
    (∃ e es, s.events = e :: es ∧ runEvent e (dropEvent s) = .next t) := by
  cases hs : s.events with
  | nil => exact .inl ⟨rfl, by rw [← step_of_no_event s hs]; exact h⟩
  | cons e es => exact .inr ⟨e, es, rfl, by rw [← step_of_event s e es hs]; exact h⟩

end Sys2Proof.Machine
end

