-- ==== Sys2Proof/Laws/PerInstr.lean ====
section
/-! SUPPORT. For every transaction kind: the word its encoder writes matches that kind's row of the decode map
(spec/30_encoding.md R93), for every well-formed operand. -/

namespace Sys2Proof.Laws.EncodeRow

/-- The encoded word has the `match` bits under the `mask` of the row that carries the kind's name. -/
def Statement (i : Instr) : Prop :=
  i.wf = true → ∃ row ∈ decodeMap ++ fallbackMap, row.1 = i.mnemonic ∧ rowMatches row (encode i) = true

theorem packWord_and (we we' : Bool) (off off' : Byte) (d d' : Word) :
    packWord we off d &&& packWord we' off' d' = packWord (we && we') (off &&& off') (d &&& d') := by
  apply BitVec.eq_of_getLsbD_eq
  intro i _
  rw [BitVec.getLsbD_and, getLsbD_packWord, getLsbD_packWord, getLsbD_packWord]
  split
  · rw [BitVec.getLsbD_and]
  · split
    · rw [BitVec.getLsbD_and]
    · cases we <;> cases we' <;> simp

/-- The mask of a row that names WE and OFF only. -/
theorem offset_mask : 0x1FF00000000#41 = packWord true 0xFF#8 0#32 := by decide

/-- The mask of a fallback row, WE only. -/
theorem direction_mask : 0x10000000000#41 = packWord true 0#8 0#32 := by decide

theorem offset_row (we : Bool) (off : Byte) (d : Word) (name : String) :
    rowMatches (name, packWord we off 0#32, 0x1FF00000000#41) (packWord we off d) = true := by
  have h : off &&& 0xFF#8 = off := BitVec.and_allOnes
  rw [rowMatches, offset_mask, packWord_and, h]
  simp

theorem direction_row (we : Bool) (off : Byte) (d : Word) (name : String) :
    rowMatches (name, packWord we 0#8 0#32, 0x10000000000#41) (packWord we off d) = true := by
  rw [rowMatches, direction_mask, packWord_and]
  simp

theorem and_one (d : Word) : d &&& 1#32 = if d.getLsbD 0 then 1#32 else 0#32 := by
  apply BitVec.eq_of_getLsbD_eq
  intro i _
  by_cases h0 : i = 0
  · subst h0; cases h : d.getLsbD 0 <;> simp_all
  · cases h : d.getLsbD 0 <;> simp [h0]

theorem and_three (d : Word) :
    d &&& 3#32 = (if d.getLsbD 1 then 2#32 else 0#32) ||| (if d.getLsbD 0 then 1#32 else 0#32) := by
  apply BitVec.eq_of_getLsbD_eq
  intro i _
  rcases i with _ | _ | i
  · cases h : d.getLsbD 0 <;> cases h1 : d.getLsbD 1 <;> simp_all
  · cases h : d.getLsbD 0 <;> cases h1 : d.getLsbD 1 <;> simp_all
  · have h3 : (3#32).getLsbD (i + 2) = false := by
      rw [BitVec.getLsbD_ofNat, Nat.testBit_lt_two_pow (Nat.lt_of_lt_of_le (by decide : 3 < 2 ^ 2)
        (Nat.pow_le_pow_right (by decide) (by omega))), Bool.and_false]
    have h2 : (2#32).getLsbD (i + 2) = false := by
      rw [BitVec.getLsbD_ofNat, Nat.testBit_lt_two_pow (Nat.lt_of_lt_of_le (by decide : 2 < 2 ^ 2)
        (Nat.pow_le_pow_right (by decide) (by omega))), Bool.and_false]
    have h1 : (1#32).getLsbD (i + 2) = false := by simp
    cases d.getLsbD 0 <;> cases d.getLsbD 1 <;> simp [h1, h2, h3]

theorem rdId : Statement Instr.rdId := by
  intro _
  exact ⟨("RD_ID", packWord false (Reg.offset .id) 0#32, 0x1FF00000000#41), by decide, rfl, offset_row _ _ _ _⟩

theorem wrId (wdata : Word) : Statement (Instr.wrId wdata) := by
  intro _
  exact ⟨("WR_ID", packWord true (Reg.offset .id) 0#32, 0x1FF00000000#41), by decide, rfl, offset_row _ _ _ _⟩

theorem rdCtrl : Statement Instr.rdCtrl := by
  intro _
  exact ⟨("RD_CTRL", packWord false (Reg.offset .ctrl) 0#32, 0x1FF00000000#41), by decide, rfl, offset_row _ _ _ _⟩

theorem wrCtrl (wdata : Word) : Statement (Instr.wrCtrl wdata) := by
  intro h
  refine ⟨("WR_CTRL", packWord true 0x04#8 0#32, packWord true 0xFF#8 1#32), by decide, rfl, ?_⟩
  simp only [Instr.wf, Bool.not_eq_true'] at h
  have e : encode (.wrCtrl wdata) = packWord true 0x04#8 wdata := rfl
  rw [rowMatches, e, packWord_and, and_one, h]
  decide

theorem startNearest (wdata : Word) : Statement (Instr.startNearest wdata) := by
  intro h
  refine ⟨("START_NEAREST", packWord true 0x04#8 1#32, packWord true 0xFF#8 3#32), by decide, rfl, ?_⟩
  simp only [Instr.wf, Bool.and_eq_true, Bool.not_eq_true'] at h
  have e : encode (.startNearest wdata) = packWord true 0x04#8 wdata := rfl
  rw [rowMatches, e, packWord_and, and_three, h.1, h.2]
  decide

theorem startBilinear (wdata : Word) : Statement (Instr.startBilinear wdata) := by
  intro h
  refine ⟨("START_BILINEAR", packWord true 0x04#8 3#32, packWord true 0xFF#8 3#32), by decide, rfl, ?_⟩
  simp only [Instr.wf, Bool.and_eq_true] at h
  have e : encode (.startBilinear wdata) = packWord true 0x04#8 wdata := rfl
  rw [rowMatches, e, packWord_and, and_three, h.1, h.2]
  decide

theorem rdStatus : Statement Instr.rdStatus := by
  intro _
  exact ⟨("RD_STATUS", packWord false (Reg.offset .status) 0#32, 0x1FF00000000#41), by decide, rfl, offset_row _ _ _ _⟩

theorem wrStatus (wdata : Word) : Statement (Instr.wrStatus wdata) := by
  intro _
  exact ⟨("WR_STATUS", packWord true (Reg.offset .status) 0#32, 0x1FF00000000#41), by decide, rfl, offset_row _ _ _ _⟩

theorem rdSrcAddr : Statement Instr.rdSrcAddr := by
  intro _
  exact ⟨("RD_SRC_ADDR", packWord false (Reg.offset .srcAddr) 0#32, 0x1FF00000000#41), by decide, rfl, offset_row _ _ _ _⟩

theorem wrSrcAddr (wdata : Word) : Statement (Instr.wrSrcAddr wdata) := by
  intro _
  exact ⟨("WR_SRC_ADDR", packWord true (Reg.offset .srcAddr) 0#32, 0x1FF00000000#41), by decide, rfl, offset_row _ _ _ _⟩

theorem rdSrcSize : Statement Instr.rdSrcSize := by
  intro _
  exact ⟨("RD_SRC_SIZE", packWord false (Reg.offset .srcSize) 0#32, 0x1FF00000000#41), by decide, rfl, offset_row _ _ _ _⟩

theorem wrSrcSize (wdata : Word) : Statement (Instr.wrSrcSize wdata) := by
  intro _
  exact ⟨("WR_SRC_SIZE", packWord true (Reg.offset .srcSize) 0#32, 0x1FF00000000#41), by decide, rfl, offset_row _ _ _ _⟩

theorem rdMaxDim : Statement Instr.rdMaxDim := by
  intro _
  exact ⟨("RD_MAX_DIM", packWord false (Reg.offset .maxDim) 0#32, 0x1FF00000000#41), by decide, rfl, offset_row _ _ _ _⟩

theorem wrMaxDim (wdata : Word) : Statement (Instr.wrMaxDim wdata) := by
  intro _
  exact ⟨("WR_MAX_DIM", packWord true (Reg.offset .maxDim) 0#32, 0x1FF00000000#41), by decide, rfl, offset_row _ _ _ _⟩

theorem rdDstAddr : Statement Instr.rdDstAddr := by
  intro _
  exact ⟨("RD_DST_ADDR", packWord false (Reg.offset .dstAddr) 0#32, 0x1FF00000000#41), by decide, rfl, offset_row _ _ _ _⟩

theorem wrDstAddr (wdata : Word) : Statement (Instr.wrDstAddr wdata) := by
  intro _
  exact ⟨("WR_DST_ADDR", packWord true (Reg.offset .dstAddr) 0#32, 0x1FF00000000#41), by decide, rfl, offset_row _ _ _ _⟩

theorem rdOutW : Statement Instr.rdOutW := by
  intro _
  exact ⟨("RD_OUT_W", packWord false (Reg.offset .outW) 0#32, 0x1FF00000000#41), by decide, rfl, offset_row _ _ _ _⟩

theorem wrOutW (wdata : Word) : Statement (Instr.wrOutW wdata) := by
  intro _
  exact ⟨("WR_OUT_W", packWord true (Reg.offset .outW) 0#32, 0x1FF00000000#41), by decide, rfl, offset_row _ _ _ _⟩

theorem rdOutH : Statement Instr.rdOutH := by
  intro _
  exact ⟨("RD_OUT_H", packWord false (Reg.offset .outH) 0#32, 0x1FF00000000#41), by decide, rfl, offset_row _ _ _ _⟩

theorem wrOutH (wdata : Word) : Statement (Instr.wrOutH wdata) := by
  intro _
  exact ⟨("WR_OUT_H", packWord true (Reg.offset .outH) 0#32, 0x1FF00000000#41), by decide, rfl, offset_row _ _ _ _⟩

theorem rdOutLen : Statement Instr.rdOutLen := by
  intro _
  exact ⟨("RD_OUT_LEN", packWord false (Reg.offset .outLen) 0#32, 0x1FF00000000#41), by decide, rfl, offset_row _ _ _ _⟩

theorem wrOutLen (wdata : Word) : Statement (Instr.wrOutLen wdata) := by
  intro _
  exact ⟨("WR_OUT_LEN", packWord true (Reg.offset .outLen) 0#32, 0x1FF00000000#41), by decide, rfl, offset_row _ _ _ _⟩

theorem rdRsv (off : Byte) : Statement (Instr.rdRsv off) := by
  intro _
  exact ⟨("RD_RSV", packWord false 0#8 0#32, 0x10000000000#41), by decide, rfl, direction_row _ _ _ _⟩

theorem wrRsv (off : Byte) (wdata : Word) : Statement (Instr.wrRsv off wdata) := by
  intro _
  exact ⟨("WR_RSV", packWord true 0#8 0#32, 0x10000000000#41), by decide, rfl, direction_row _ _ _ _⟩

end Sys2Proof.Laws.EncodeRow
end

