-- ==== Sys2Proof/Laws/Region.lean ====
section
/-! SUPPORT. What the region tests mean, address by address: `exists a in ... with not MemOK(a)` (spec/60_exceptions.md
R266), memory with side effects (20_memory R71), and which check a job fails (60 R267). -/

namespace Sys2Proof.Machine

theorem has_iff (r : AddrRange) (a : Nat) : AddrRange.has r a = true ↔ r.lo ≤ a ∧ a < r.hi := by
  simp [AddrRange.has]

theorem meets_iff (r q : AddrRange) :
    AddrRange.meets r q = true ↔ ∃ a, AddrRange.has q a = true ∧ AddrRange.has r a = true := by
  simp only [AddrRange.meets, decide_eq_true_eq, has_iff]
  constructor
  · intro h; exact ⟨max r.lo q.lo, by omega⟩
  · rintro ⟨a, h1, h2⟩; omega

/-- A region holds a bad byte exactly where some address of it fails `MemOK` (60 R266). -/
theorem badByteIn_iff (c : Config) (q : AddrRange) :
    badByteIn c q = true ↔ ∃ a, AddrRange.has q a = true ∧ memOK c a = false := by
  simp only [badByteIn, memOK, List.any_eq_true, meets_iff, Bool.not_eq_false']
  constructor
  · rintro ⟨r, hr, a, hq, ha⟩; exact ⟨a, hq, r, hr, ha⟩
  · rintro ⟨a, hq, r, hr, ha⟩; exact ⟨r, hr, a, hq, ha⟩

/-- A region lies on memory with side effects exactly where some address of it does (20_memory R71). -/
theorem deviceIn_iff (c : Config) (q : AddrRange) :
    deviceIn c q = true ↔ ∃ a, AddrRange.has q a = true ∧ isDevice c a = true := by
  simp only [deviceIn, isDevice, List.any_eq_true, meets_iff]
  constructor
  · rintro ⟨r, hr, a, hq, ha⟩; exact ⟨a, hq, r, hr, ha⟩
  · rintro ⟨a, hq, r, hr, ha⟩; exact ⟨r, hr, a, hq, ha⟩

/-- A job passes its checks exactly where no condition of R262 to R265 holds. -/
theorem checkJob_none_iff (j : Job) :
    checkJob j = none ↔ hasInvalidDimensions j = false ∧ hasTargetDimZero j = false ∧ hasAddrRange j = false ∧
      hasOverlap j = false := by
  unfold checkJob
  cases hasInvalidDimensions j <;> cases hasTargetDimZero j <;> cases hasAddrRange j <;> cases hasOverlap j <;> simp

/-- No check reports BUS_ERROR (60 R267). -/
theorem checkJob_ne_busError (j : Job) : checkJob j ≠ some .busError := by
  unfold checkJob
  cases hasInvalidDimensions j <;> cases hasTargetDimZero j <;> cases hasAddrRange j <;> cases hasOverlap j <;> simp

/-- A job that passed its checks has sides of 1 or more, before and after scaling (60 R262, R263). -/
theorem dims_of_check (j : Job) (h : checkJob j = none) :
    0 < j.ow.toNat ∧ 0 < j.oh.toNat ∧ 0 < (jobDims j).1 ∧ 0 < (jobDims j).2 := by
  obtain ⟨h1, h2, _, _⟩ := (checkJob_none_iff j).mp h
  simp only [hasInvalidDimensions, hasTargetDimZero, Bool.or_eq_false_iff, beq_eq_false_iff_ne, ne_eq] at h1 h2
  have hw : j.ow.toNat ≠ 0 := fun e => h1.1 (BitVec.eq_of_toNat_eq (by simpa using e))
  have hh : j.oh.toNat ≠ 0 := fun e => h1.2 (BitVec.eq_of_toNat_eq (by simpa using e))
  omega

end Sys2Proof.Machine
end

