-- ==== Sys2Proof/Tests/Slice0.lean ====
section
/-! SUPPORT. Tests against the spec's own examples and vectors (spec/95_test_vectors.md and the examples of the rules), and,
for each statement with hypotheses, a witness that meets them. -/

namespace Sys2Proof.Tests

open Sys2Proof Sys2Proof.Machine

/-- The next state of an outcome, or the reset state where there is none. -/
def after (o : Host.Outcome State Fault Refusal) : State :=
  match o with
  | .next t => t
  | .fault _ => State.reset
  | .refused _ => State.reset

/-- An outcome is a next state. -/
def isNext (o : Host.Outcome State Fault Refusal) : Bool :=
  match o with
  | .next _ => true
  | .fault _ => false
  | .refused _ => false

/-- The fault an outcome stops with. -/
def faultOf (o : Host.Outcome State Fault Refusal) : Option Fault :=
  match o with
  | .next _ => none
  | .fault r => some r
  | .refused _ => none

/-- The refusal an outcome stops with. -/
def refusalOf (o : Host.Outcome State Fault Refusal) : Option Refusal :=
  match o with
  | .next _ => none
  | .fault _ => none
  | .refused r => some r

/-! ### Well-formed terms: each check refuses an ill-formed one (30_encoding R93, R94) -/

theorem test_wf_wrCtrl_start_bit : (Instr.wrCtrl 0x1#32).wf = false := by decide
theorem test_wf_startNearest_no_start : (Instr.startNearest 0x4#32).wf = false := by decide
theorem test_wf_startNearest_filter : (Instr.startNearest 0x3#32).wf = false := by decide
theorem test_wf_startBilinear_no_start : (Instr.startBilinear 0x2#32).wf = false := by decide
theorem test_wf_startBilinear_no_filter : (Instr.startBilinear 0x1#32).wf = false := by decide
theorem test_wf_rdRsv_defined : (Instr.rdRsv 0x24#8).wf = false := by decide
theorem test_wf_wrRsv_defined : (Instr.wrRsv 0x00#8 0x1#32).wf = false := by decide
theorem test_wf_rsv_unaligned : (Instr.rdRsv 0x05#8).wf = true ∧ (Instr.wrRsv 0xFC#8 0x0#32).wf = true := by decide

/-! ### Decoding: every kind by a word of the spec (the examples of 40_host_commands.md, 30_encoding R99) -/

theorem test_decode_rdId : decode 0x00000000000#41 = .rdId := by decide
theorem test_decode_wrId : decode 0x10000000000#41 = .wrId 0x0#32 := by decide
theorem test_decode_rdCtrl : decode 0x00400000000#41 = .rdCtrl := by decide
theorem test_decode_wrCtrl : decode 0x10400000004#41 = .wrCtrl 0x4#32 := by decide
theorem test_decode_startNearest : decode 0x10400000005#41 = .startNearest 0x5#32 := by decide
theorem test_decode_startBilinear : decode 0x10400000003#41 = .startBilinear 0x3#32 := by decide
theorem test_decode_rdStatus : decode 0x00800000000#41 = .rdStatus := by decide
theorem test_decode_wrStatus : decode 0x10800000006#41 = .wrStatus 0x6#32 := by decide
theorem test_decode_rdSrcAddr : decode 0x00C00000000#41 = .rdSrcAddr := by decide
theorem test_decode_wrSrcAddr : decode 0x10C00001000#41 = .wrSrcAddr 0x1000#32 := by decide
theorem test_decode_rdSrcSize : decode 0x01000000000#41 = .rdSrcSize := by decide
theorem test_decode_wrSrcSize : decode 0x11000020004#41 = .wrSrcSize 0x00020004#32 := by decide
theorem test_decode_rdMaxDim : decode 0x01400000000#41 = .rdMaxDim := by decide
theorem test_decode_wrMaxDim : decode 0x114FFFF1234#41 = .wrMaxDim 0xFFFF1234#32 := by decide
theorem test_decode_rdDstAddr : decode 0x01800000000#41 = .rdDstAddr := by decide
theorem test_decode_wrDstAddr : decode 0x11800002000#41 = .wrDstAddr 0x2000#32 := by decide
theorem test_decode_rdOutW : decode 0x01C00000000#41 = .rdOutW := by decide
theorem test_decode_wrOutW : decode 0x11C00000007#41 = .wrOutW 0x7#32 := by decide
theorem test_decode_rdOutH : decode 0x02000000000#41 = .rdOutH := by decide
theorem test_decode_wrOutH : decode 0x12000000007#41 = .wrOutH 0x7#32 := by decide
theorem test_decode_rdOutLen : decode 0x02400000000#41 = .rdOutLen := by decide
theorem test_decode_wrOutLen : decode 0x12400000007#41 = .wrOutLen 0x7#32 := by decide
theorem test_decode_rdRsv : decode 0x02800000000#41 = .rdRsv 0x28#8 := by decide
theorem test_decode_wrRsv : decode 0x1FCFFFFFFFF#41 = .wrRsv 0xFC#8 0xFFFFFFFF#32 := by decide
/-- H7: a CTRL write of all ones is START_BILINEAR. -/
theorem test_decode_all_ones : decode 0x104FFFFFFFF#41 = .startBilinear 0xFFFFFFFF#32 := by decide
/-- The WDATA of a read is ignored (30_encoding R90). -/
theorem test_decode_read_ignores_wdata : decode 0x004FFFFFFFF#41 = .rdCtrl := by decide
/-- A number with a bit beyond bit 40 is no transaction word (30_encoding R97). -/
theorem test_decodeTableWord_too_wide : decodeTableWord 48 0x20000000000 = none := by decide
theorem test_decodeTableWord_ack : decodeTableWord 48 0x10800000006 = some (.wrStatus 0x6#32) := by decide

/-! ### Transactions (95_test_vectors section 2) -/

/-- A state with DONE set, as after a job, and IRQ_EN. -/
def finished : State := { State.reset with done := true, irqEn := true, outW := 4#32, outH := 2#32, outLen := 4#32 }

/-- A state with STATUS = 0x44, as after an OVERLAP. -/
def failed : State := { State.reset with err := true, errcode := 4#4 }

/-- A state configured as P1 after its step 3, with the source of P1 in memory. -/
def p1Source : Memory :=
  Memory.writeRun [] 0x1000
    ([0x00#8, 0x00#8, 0x00#8, 0xFF#8, 0xFF#8, 0xFF#8, 0xFF#8, 0xFF#8, 0xFF#8, 0x00#8, 0x00#8, 0xFF#8, 0x00#8, 0xFF#8,
      0x00#8, 0xFF#8] ++
     [0x00#8, 0x00#8, 0xFF#8, 0xFF#8, 0x80#8, 0x80#8, 0x80#8, 0xFF#8, 0x00#8, 0x24#8, 0x0C#8, 0xFF#8, 0x00#8, 0x50#8,
      0x6E#8, 0x00#8])

def p1Setup : State :=
  { State.reset with srcAddr := 0x1000#32, srcW := 4#16, srcH := 2#16, dstAddr := 0x2000#32, mem := p1Source }

/-- The job P1 starts. -/
def p1Job : Job :=
  { src := 0x1000#32, ow := 4#16, oh := 2#16, maxDim := 1024#16, dst := 0x2000#32, filter := false }

/-- P1 while its job runs. -/
def p1Busy : State := { p1Setup with job := p1Job, phase := .busy }

theorem test_rdId : (after (exec .rdId p1Busy)).rdata = 0x49324341#32 := by decide
theorem test_wrId : exec (.wrId 0x0#32) finished = .next finished := by rfl
theorem test_rdCtrl : (after (exec .rdCtrl finished)).rdata = 0x00000004#32 := by decide
/-- H5. -/
theorem test_wrCtrl : (after (exec .rdCtrl (after (exec (.wrCtrl 0x6#32) State.reset)))).rdata = 0x00000006#32 := by decide
/-- H17: irq rises on a CTRL write while DONE is set; DONE is unchanged. -/
theorem test_wrCtrl_raises_irq :
    (after (exec (.wrCtrl 0x4#32) { State.reset with done := true })).irq = true := by decide
/-- R125's example, and R126: start.nearest.irq. -/
theorem test_startNearest : (after (exec (.startNearest 0x5#32) p1Setup)).job = p1Job ∧
    (after (exec (.startNearest 0x5#32) p1Setup)).irqEn = true ∧
    (after (exec (.startNearest 0x5#32) failed)).errcode = 0#4 := by decide
/-- H18: a second START while BUSY changes FILTER and starts nothing. -/
theorem test_startBilinear_busy : (after (exec (.startBilinear 0x3#32) p1Busy)).job.filter = false ∧
    (after (exec (.startBilinear 0x3#32) p1Busy)).filter = true := by decide
theorem test_startBilinear : (after (exec (.startBilinear 0x3#32) p1Setup)).job.filter = true ∧
    (after (exec (.startBilinear 0x3#32) p1Setup)).phase = .busy := by decide
/-- R128's example: 0x44 after an OVERLAP. -/
theorem test_rdStatus : (after (exec .rdStatus failed)).rdata = 0x00000044#32 ∧
    (after (exec .rdStatus p1Busy)).rdata = 0x00000001#32 := by decide
/-- H14: ERR is cleared, ERRCODE kept. -/
theorem test_wrStatus_keeps_errcode : statusWord (after (exec (.wrStatus 0xFFFFFFFF#32) failed)) = 0x40#32 := by decide
/-- H15, H16: ack lowers irq; a write of 0 clears nothing. -/
theorem test_wrStatus_ack : (after (exec (.wrStatus 0x6#32) finished)).irq = false ∧
    statusWord (after (exec (.wrStatus 0x0#32) finished)) = 0x2#32 := by decide
/-- H9. -/
theorem test_srcAddr : (after (exec .rdSrcAddr (after (exec (.wrSrcAddr 0xFFFFFFFF#32) State.reset)))).rdata =
    0xFFFFFFFF#32 := by decide
/-- H20: a write during BUSY leaves JOB alone. -/
theorem test_wrSrcAddr_busy : (after (exec (.wrSrcAddr 0x9000#32) p1Busy)).job.src = 0x1000#32 := by decide
/-- H8. -/
theorem test_srcSize : (after (exec .rdSrcSize (after (exec (.wrSrcSize 0x00020004#32) State.reset)))).rdata =
    0x00020004#32 ∧ (after (exec (.wrSrcSize 0x00020004#32) State.reset)).srcW = 4#16 := by decide
/-- H3, H4. -/
theorem test_maxDim : (after (exec .rdMaxDim State.reset)).rdata = 0x00000400#32 ∧
    (after (exec .rdMaxDim (after (exec (.wrMaxDim 0xFFFF1234#32) State.reset)))).rdata = 0x00001234#32 := by decide
theorem test_dstAddr : (after (exec .rdDstAddr (after (exec (.wrDstAddr 0x2000#32) State.reset)))).rdata =
    0x00002000#32 := by decide
/-- H13 and the result reads after P1. -/
theorem test_results : (after (exec .rdOutW finished)).rdata = 4#32 ∧ (after (exec .rdOutH finished)).rdata = 2#32 ∧
    (after (exec .rdOutLen finished)).rdata = 4#32 := by decide
theorem test_wrOutW : exec (.wrOutW 0x7#32) finished = .next finished := by rfl
theorem test_wrOutH : exec (.wrOutH 0x7#32) finished = .next finished := by rfl
theorem test_wrOutLen : exec (.wrOutLen 0x7#32) finished = .next finished := by rfl
/-- H11: offset 0x05 is reserved, not an unaligned read of CTRL. -/
theorem test_rdRsv : (after (exec (.rdRsv 0x05#8) { finished with filter := true })).rdata = 0#32 := by decide
/-- H12: no job starts. -/
theorem test_wrRsv : (after (exec (.wrRsv 0x05#8 0x1#32) State.reset)).phase = .idle := by decide

/-! ### Target dimensions (95_test_vectors section 3) -/

theorem test_dims_scaled :
    targetDims 2000 1000 1024 = (1024, 512) ∧ targetDims 2001 1000 1024 = (1024, 512) ∧
    targetDims 2046 2048 1024 = (1022, 1023) ∧ targetDims 5 1025 1024 = (4, 820) ∧
    targetDims 2000 1000 1023 = (1022, 511) ∧ targetDims 1025 1025 1024 = (1024, 1024) ∧
    targetDims 2048 1025 1024 = (1024, 513) ∧ targetDims 6144 3075 1024 = (1024, 513) ∧
    targetDims 4000 3 1024 = (1024, 1) ∧ targetDims 8 4 4 = (4, 2) := by decide
theorem test_dims_width_two :
    targetDims 1 1 1024 = (2, 2) ∧ targetDims 3 1 1024 = (2, 1) ∧ targetDims 1 2000 1024 = (2, 4000) ∧
    targetDims 2 3000 1024 = (2, 3000) ∧ targetDims 3 4000 1024 = (2, 2667) ∧
    targetDims 1 65535 32768 = (2, 131070) ∧ targetDims 3 2 1 = (2, 1) ∧ targetDims 2 3 1 = (2, 3) := by decide
theorem test_dims_odd : targetDims 1023 5 1024 = (1022, 5) ∧ targetDims 5 5 1024 = (4, 4) ∧
    targetDims 7 3 1024 = (6, 3) ∧ targetDims 65534 65535 65535 = (65534, 65535) := by decide
theorem test_dims_zero :
    targetDims 1 5000 1024 = (0, 1024) ∧ targetDims 3000 1 1024 = (1024, 0) ∧ targetDims 1 65535 32767 = (0, 32767) ∧
    targetDims 1 3 1 = (0, 1) ∧ targetDims 5 3 0 = (0, 0) := by decide

/-! ### Resampling, quantizing, packing (95_test_vectors sections 4 to 6) -/

theorem test_nearest_columns : (List.range 4).map (nearestIndex 5 4) = [0, 1, 3, 4] ∧
    (List.range 2).map (nearestIndex 4 2) = [1, 3] ∧ (List.range 2).map (nearestIndex 1 2) = [0, 0] := by decide
theorem test_bilinear_columns :
    (List.range 4).map (fun x => (bilinearLow 5 4 x, bilinearWeight 5 4 x, bilinearHigh 5 4 x)) =
      [(0, 1, 1), (1, 3, 2), (2, 5, 3), (3, 7, 4)] ∧
    (List.range 4).map (fun y => (bilinearLow 2 4 y, bilinearWeight 2 4 y, bilinearHigh 2 4 y)) =
      [(0, 0, 1), (0, 2, 1), (0, 6, 1), (1, 0, 1)] := by decide
/-- Q2: 122/4 = 30.5 goes up to 31. -/
theorem test_mix_tie_up : mixPixel 2 1 2 1 ⟨255#8, 0#8, 0#8, 255#8⟩ ⟨0#8, 255#8, 0#8, 255#8⟩ ⟨0#8, 36#8, 12#8, 255#8⟩
    ⟨0#8, 80#8, 110#8, 0#8⟩ = ⟨64#8, 93#8, 31#8, 191#8⟩ := by decide
/-- L3 to L12, EXACT. -/
theorem test_luma_exact : lumaExact 255 0 0 = 76 ∧ lumaExact 0 255 0 = 150 ∧ lumaExact 0 0 255 = 29 ∧
    lumaExact 0 36 12 = 23 ∧ lumaExact 0 80 110 = 60 ∧ lumaExact 0 204 68 = 128 ∧ lumaExact 96 96 160 = 103 := by decide
/-- L1, L2, L7 to L12, BINARY64: one less on the ties. -/
theorem test_luma_binary64 : lumaBinary64 0 0 0 = 0 ∧ lumaBinary64 255 255 255 = 255 ∧ lumaBinary64 0 36 12 = 22 ∧
    lumaBinary64 0 80 110 = 59 ∧ lumaBinary64 0 204 68 = 127 ∧ lumaBinary64 3 39 15 = 25 ∧
    lumaBinary64 96 96 160 = 103 ∧ lumaBinary64 64 93 31 = 77 := by decide
/-- The band edges of QUANT4 (42 R193). -/
theorem test_quant4_edges : quant4 8 = 0 ∧ quant4 9 = 1 ∧ quant4 25 = 1 ∧ quant4 26 = 2 ∧ quant4 127 = 7 ∧
    quant4 128 = 8 ∧ quant4 246 = 14 ∧ quant4 247 = 15 ∧ quant4 255 = 15 := by decide
/-- K1, K2, K6. -/
theorem test_pack : packByte 4#4 9#4 = 0x49#8 ∧ packByte 15#4 0#4 = 0xF0#8 ∧ highNibble 0xA7#8 = 10#4 ∧
    lowNibble 0xA7#8 = 7#4 := by decide

/-! ### Jobs (95_test_vectors sections 7 to 9) -/

/-- P1: 0F 49 28 14 at 0x2000, DONE, OUT 4, 2, 4. -/
theorem test_p1_bytes : runJob Config.plain p1Job p1Source false = .ok 4 2 [0x0F#8, 0x49#8, 0x28#8, 0x14#8] := by
  decide +kernel
theorem test_p1_completion : (after (engineTurn p1Busy)).outLen = 4#32 ∧
    statusWord (after (engineTurn p1Busy)) = 0x2#32 ∧ Memory.read (after (engineTurn p1Busy)).mem 0x2003 = 0x14#8 := by
  decide +kernel
/-- P1 under BINARY64: 0F 49 28 13. -/
theorem test_p1_binary64 : runJob { Config.plain with lumaArith := .binary64 } p1Job p1Source false =
    .ok 4 2 [0x0F#8, 0x49#8, 0x28#8, 0x13#8] := by decide +kernel
/-- P2: M = 2, bilinear gives 0x65, nearest 0x84. -/
theorem test_p2 : runJob Config.plain { p1Job with maxDim := 2#16, filter := true } p1Source false = .ok 2 1 [0x65#8] ∧
    runJob Config.plain { p1Job with maxDim := 2#16 } p1Source false = .ok 2 1 [0x84#8] := by decide +kernel
/-- P3: 3x1, nearest 0x1D, bilinear 0x4D. -/
theorem test_p3 :
    let m := Memory.writeRun [] 0x3000
      [0x0A#8, 0x14#8, 0x1E#8, 0xFF#8, 0xC8#8, 0xC8#8, 0xC8#8, 0xFF#8, 0xFF#8, 0xFF#8, 0x00#8, 0xFF#8]
    let j : Job :=
      { src := 0x3000#32, ow := 3#16, oh := 1#16, maxDim := 1024#16, dst := 0x3100#32, filter := false }
    runJob Config.plain j m false = .ok 2 1 [0x1D#8] ∧
    runJob Config.plain { j with filter := true } m false = .ok 2 1 [0x4D#8] := by decide +kernel
/-- P7: the 8x4 gradient scaled to 4x2, bytes 35 67 9A BD by nearest and 23 45 78 AB by bilinear. -/
theorem test_p7 :
    let m := Memory.writeRun [] 0x4000 ((List.range 32).flatMap fun i =>
      [BitVec.ofNat 8 (36 * (i % 8)), BitVec.ofNat 8 (80 * (i / 8)), 0#8, 255#8])
    let j : Job :=
      { src := 0x4000#32, ow := 8#16, oh := 4#16, maxDim := 4#16, dst := 0x5000#32, filter := false }
    runJob Config.plain j m false = .ok 4 2 [0x35#8, 0x67#8, 0x9A#8, 0xBD#8] ∧
    runJob Config.plain { j with filter := true } m false = .ok 4 2 [0x23#8, 0x45#8, 0x78#8, 0xAB#8] := by
  decide +kernel
/-- X1 to X5, X7 to X9: the codes of the checks, by priority. -/
theorem test_checks :
    checkJob { p1Job with ow := 0#16, dst := 0x1000#32 } = some .invalidDimensions ∧
    checkJob { p1Job with ow := 1#16, oh := 5000#16, src := 0xFFFFFFFF#32 } = some .targetDimZero ∧
    checkJob { p1Job with ow := 5#16, oh := 3#16, maxDim := 0#16 } = some .targetDimZero ∧
    checkJob { p1Job with ow := 2#16, oh := 2#16, src := 0xFFFFFFF1#32 } = some .addrRange ∧
    checkJob { p1Job with ow := 2#16, oh := 2#16, dst := 0xFFFFFFFF#32 } = some .addrRange ∧
    checkJob { p1Job with dst := 0x101F#32 } = some .overlap := by decide +kernel
/-- X6, X10, X11: regions that end at 2^32 or touch without overlap pass. -/
theorem test_checks_pass :
    checkJob { p1Job with ow := 2#16, oh := 2#16, src := 0xFFFFFFF0#32 } = none ∧
    checkJob { p1Job with dst := 0x1020#32 } = none ∧ checkJob { p1Job with dst := 0x0FFC#32 } = none := by decide +kernel
/-- X12, X14: a bad byte of DST_REGION or of NEED fails the job. -/
theorem test_bus_error :
    runJob { Config.plain with memErr := [⟨0x2002, 0x100000000⟩] } p1Job p1Source false = .err .busError ∧
    runJob { Config.plain with memErr := [⟨0x1004, 0x1005⟩] } p1Job p1Source false = .err .busError := by decide +kernel
/-- X13: a bad A byte may or may not fail the job. -/
theorem test_bus_error_open :
    runJob { Config.plain with memErr := [⟨0x1007, 0x1008⟩] } p1Job p1Source true = .err .busError ∧
    runJob { Config.plain with memErr := [⟨0x1007, 0x1008⟩] } p1Job p1Source false =
      .ok 4 2 [0x0F#8, 0x49#8, 0x28#8, 0x14#8] := by decide +kernel
/-- P4: STATUS 0x14 after a zero width, memory untouched. -/
theorem test_p4 : statusWord (after (engineTurn { p1Busy with job := { p1Job with ow := 0#16 } })) = 0x14#32 ∧
    (after (engineTurn { p1Busy with job := { p1Job with ow := 0#16 } })).mem = p1Source := by decide +kernel
/-- Z2: reset while P1's job is BUSY: STATUS 0, MAX_DIM 0x400, a source byte unchanged. -/
theorem test_reset_busy : statusWord (after (resetTurn p1Busy)) = 0#32 ∧
    readReg .maxDim (after (resetTurn p1Busy)) = 0x400#32 := by decide +kernel

/-! ### The step -/

/-- A table word placed at reset is run by the very next step. -/
theorem test_withFetchWord : step (State.reset.withFetchWord 48 0x11000020004) = exec (.wrSrcSize 0x00020004#32) State.reset := by
  rfl
/-- 70 R302: after reset the block is IDLE and starts nothing by itself. -/
theorem test_idle_step : step State.reset = .next State.reset := by rfl
/-- The host's own accesses: beyond the address space, to a device, to a region while BUSY (20_memory R60, R71, R79). -/
theorem test_host_stops :
    faultOf (hostWriteTurn 0x100000000 1#8 p1Busy) = some .noSuchAddress ∧
    refusalOf (hostReadTurn 5 { p1Busy with config := { Config.plain with device := [⟨0, 16⟩] } }) = some .deviceAccess ∧
    refusalOf (hostWriteTurn 0x2003 1#8 p1Busy) = some .regionWrittenWhileBusy ∧
    isNext (hostWriteTurn 0x2004 1#8 p1Busy) = true := by decide +kernel
/-- A job on memory with side effects is refused at its completion (20_memory R71). -/
theorem test_device_region :
    refusalOf (engineTurn { p1Busy with config := { Config.plain with device := [⟨0x2000, 0x2001⟩] } }) =
      some .regionNotNormalMemory := by decide +kernel

/-! ### Witnesses: for each statement with hypotheses, operands and a state that meet them, clause by clause -/

theorem witness_wf_every_checked_kind : (Instr.wrCtrl 0xFFFFFFFE#32).wf = true ∧
    (Instr.startNearest 0xFFFFFFFD#32).wf = true ∧ (Instr.startBilinear 0xFFFFFFFF#32).wf = true ∧
    (Instr.rdRsv 0x28#8).wf = true ∧ (Instr.rdRsv 0xFF#8).wf = true ∧ (Instr.wrRsv 0x25#8 0x1#32).wf = true ∧
    Instr.rdId.wf = true := by decide

theorem witness_decode_map :
    (∃ row ∈ decodeMap, rowMatches row 0x10400000003#41 = true) ∧
    (∀ row ∈ decodeMap, rowMatches row 0x02800000000#41 = false) ∧
    (∀ row ∈ decodeMap, rowMatches row 0x12500000000#41 = false) := by decide

theorem witness_reserved_offsets : 0x28 ≤ (0x28#8 : Byte).toNat ∧ 0x28 ≤ (0xFC#8 : Byte).toNat ∧
    (0x01#8 : Byte).toNat % 4 ≠ 0 ∧ (0x25#8 : Byte).toNat % 4 ≠ 0 := by decide

theorem witness_start : p1Setup.phase = .idle ∧ p1Busy.phase = .busy ∧
    (∃ i, (i = Instr.startNearest 0x5#32 ∨ i = Instr.startBilinear 0x5#32) ∧ i.wf = true) :=
  ⟨rfl, rfl, .startNearest 0x5#32, .inl rfl, by decide⟩

theorem witness_second_start :
    ({ p1Setup with events := [.transaction (encode (.startNearest 0x1#32)),
                               .transaction (encode (.startBilinear 0x3#32))] } : State).phase = .idle ∧
    (Instr.startNearest 0x1#32).wf = true ∧ (Instr.startBilinear 0x3#32).wf = true := by decide

theorem witness_status_write : (0x2#32 : Word).getLsbD 1 = true ∧ (0x2#32 : Word).getLsbD 2 = false ∧
    (0x4#32 : Word).getLsbD 1 = false ∧ (0x4#32 : Word).getLsbD 2 = true := by decide

/-- A transaction event at the head of the list. -/
theorem witness_transaction_event :
    ({ failed with events := [.transaction 0x00800000000#41] } : State).events = .transaction 0x00800000000#41 :: [] :=
  rfl

theorem witness_frame_of_transactions :
    exec (.wrSrcAddr 0x9000#32) p1Busy = .next (after (exec (.wrSrcAddr 0x9000#32) p1Busy)) ∧
    (Instr.wrSrcAddr 0x9000#32).isStart = false ∧ (∀ wdata, Instr.wrSrcAddr 0x9000#32 ≠ .wrStatus wdata) ∧
    (after (exec .rdId finished)).done = true ∧ (after (exec .rdId failed)).err = true :=
  ⟨rfl, rfl, by simp, rfl, rfl⟩

/-- A step that takes P1's job from BUSY to IDLE: with no event left, by an engine event, and by a reset. -/
theorem witness_job_ends :
    (isNext (step p1Busy) = true ∧ (after (step p1Busy)).phase = .idle) ∧
    (isNext (step { p1Busy with events := [.engine] }) = true ∧
      (after (step { p1Busy with events := [.engine] })).phase = .idle) ∧
    (isNext (step { p1Busy with events := [.reset] }) = true ∧
      (after (step { p1Busy with events := [.reset] })).phase = .idle) := by decide +kernel

theorem witness_interrupt :
    exec (.wrStatus 0x6#32) finished = .next (after (exec (.wrStatus 0x6#32) finished)) ∧ finished.irq = true ∧
    exec (.wrCtrl 0x4#32) failed = .next (after (exec (.wrCtrl 0x4#32) failed)) ∧
    (exec (.startNearest 0x5#32) finished = .next (after (exec (.startNearest 0x5#32) finished)) ∧
      (Instr.startNearest 0x5#32).isStart = true ∧ finished.phase = .idle) :=
  ⟨rfl, by decide, rfl, rfl, rfl, rfl⟩

/-- One flag acknowledged of two that are set, a START in a legal BUSY state, a transaction that keeps the line, and a step
that drops it. -/
theorem witness_interrupt_clauses :
    ({ finished with err := true } : State).irq = true ∧
    (after (exec (.wrStatus 0x2#32) { finished with err := true })).irq = true ∧
    (after (exec (.wrStatus 0x2#32) finished)).irq = false ∧
    (RegsLegal p1Busy ∧ exec (.startNearest 0x5#32) p1Busy = .next (after (exec (.startNearest 0x5#32) p1Busy))) ∧
    (exec .rdId finished = .next (after (exec .rdId finished)) ∧ Instr.rdId.isStart = false ∧
      (∀ wdata, Instr.rdId ≠ .wrStatus wdata) ∧ ∀ wdata, Instr.rdId ≠ .wrCtrl wdata) ∧
    (after (step { finished with events := [.transaction 0x10800000006#41] })).irq = false ∧
    (after (step { finished with events := [.reset] })).irq = false := by
  refine ⟨rfl, rfl, rfl, ⟨?_, rfl⟩, ⟨rfl, rfl, by simp, by simp⟩, rfl, rfl⟩
  simp [RegsLegal, FlagsLegal, ResultsLegal, p1Busy, p1Setup, State.reset]

theorem witness_interrupt_completion : isNext (completionStep { p1Busy with irqEn := true }) = true ∧
    isNext (resetTurn { p1Busy with irqEn := true }) = true := by decide +kernel

theorem witness_dims_bounds : (targetDims 1 65535 32768).1 ≠ 0 ∧ (targetDims 1 65535 32768).2 > 65535 ∧
    (targetDims 2 3000 1024).2 > 1024 ∧ (targetDims 65535 65535 65535).1 ≠ 0 ∧
    (targetDims 1 1 1).2 ≠ 0 := by decide

theorem witness_unscaled : max 4 2 ≤ 4 ∧ 4 % 2 = 0 ∧ max 7 3 ≤ 1024 ∧ 7 % 2 = 1 ∧ max 1 1 ≤ 1 := by decide

/-- The clauses of the zero targets, on each side of their boundary. -/
theorem witness_zero_dims : (targetDims 1 2049 1024).1 = 0 ∧ (targetDims 1 2048 1024).1 ≠ 0 ∧
    (scaleDown 2049 1 1024).2 = 0 ∧ (scaleDown 2048 1 1024).2 ≠ 0 ∧
    (scaleDown 3000 1 1023).1 % 2 = 1 ∧ (targetDims 3000 1 1023).2 = 0 ∧ targetDims 5 3 0 = (0, 0) := by decide

theorem witness_nearest : 0 < 5 ∧ 3 < 4 ∧ nearestIndex 5 4 3 = 4 ∧ nearestIndex 4 4 3 = 3 := by decide

/-- Both filters on P7's width (8 to 4): the corner of the first column is 0 with weight 4 of 8, and nearest takes 1. -/
theorem witness_filters : p1Job.filter = false ∧ ({ p1Job with filter := true } : Job).filter = true ∧
    bilinearLow 8 4 0 = 0 ∧ bilinearWeight 8 4 0 = 4 ∧ bilinearHigh 8 4 0 = 1 ∧ nearestIndex 8 4 0 = 1 := by decide

theorem witness_start_kinds : p1Setup.phase = .idle ∧ (Instr.startNearest 0x5#32).wf = true ∧
    (Instr.startBilinear 0x7#32).wf = true := by decide

theorem witness_bilinear : bilinearHigh 2 4 3 = bilinearLow 2 4 3 ∧ bilinearLow 1 2 1 = 0 ∧ bilinearLow 4 4 3 = 3 := by
  decide

theorem witness_mix : 3 < 2 * 2 ∧ 1 < 2 * 1 ∧
    (∀ p ∈ [10#8, 20#8, 30#8, 255#8], 10 ≤ BitVec.toNat p ∧ BitVec.toNat p ≤ 255) := by decide

/-- A 1x1 source, upscaled to 2x2 (vector Q7). -/
def dotJob : Job :=
  { src := 0x10#32, ow := 1#16, oh := 1#16, maxDim := 1024#16, dst := 0x20#32, filter := true }

def dotSource : Memory := [(0x10, 9#8), (0x11, 99#8), (0x12, 199#8), (0x13, 7#8)]

theorem witness_uniform : checkJob dotJob = none ∧
    (∀ sx sy, sx < dotJob.ow.toNat → sy < dotJob.oh.toNat → srcPixel dotJob dotSource sx sy = ⟨9#8, 99#8, 199#8, 7#8⟩) ∧
    1 < (jobDims dotJob).1 ∧ 1 < (jobDims dotJob).2 := by
  refine ⟨by decide +kernel, ?_, by decide +kernel, by decide +kernel⟩
  intro sx sy hx hy
  have hx : sx = 0 := by simp only [dotJob] at hx; exact Nat.lt_one_iff.mp hx
  have hy : sy = 0 := by simp only [dotJob] at hy; exact Nat.lt_one_iff.mp hy
  subst hx hy
  decide +kernel

theorem witness_needed : checkJob p1Job = none ∧
    0x101E ∈ neededAddrs p1Job (jobDims p1Job).1 (jobDims p1Job).2 := by decide +kernel

theorem witness_luma : (299 * 255 + 587 * 0 + 114 * 255) % 1000 ≠ 500 ∧ (299 * 0 + 587 * 80 + 114 * 110) % 1000 = 500 := by
  decide

theorem witness_monotonic : luma .binary64 9 9 9 > luma .binary64 8 8 8 ∧ luma .decimal 9 9 9 > luma .decimal 8 8 8 := by
  decide

/-- The last byte of P1's job, byte 3: pixels (2, 1) and (3, 1), gray 23 and gray 60 (95_test_vectors P1). -/
theorem witness_packed_pair : 4 % 2 = 0 ∧ 2 * 3 < 4 * 2 ∧ (2 * 3) % 4 = 2 ∧ (2 * 3) / 4 = 1 ∧
    (jobBytes .decimal p1Job p1Source 4 2)[3]? = some 0x14#8 ∧
    quantize .decimal (resample p1Job p1Source 4 2 2 1) = 1#4 ∧
    quantize .decimal (resample p1Job p1Source 4 2 3 1) = 4#4 := by decide +kernel

/-- Each branch of the priority rule: codes 1 to 4 by test_checks, code 5 and success by test_bus_error and test_p1_bytes;
here two conditions at once report the first. -/
theorem witness_priority :
    runJob Config.plain { p1Job with ow := 0#16, dst := 0x1000#32 } p1Source true = .err .invalidDimensions ∧
    runJob Config.plain { p1Job with ow := 1#16, oh := 5000#16, src := 0xFFFFFFFF#32 } p1Source true =
      .err .targetDimZero ∧
    runJob Config.plain { p1Job with src := 0xFFFFFFFF#32, dst := 0xFFFFFFFF#32 } p1Source true = .err .addrRange := by
  decide +kernel

theorem witness_bus_fails : 0x1004 ∈ neededAddrs p1Job (jobDims p1Job).1 (jobDims p1Job).2 ∧
    memOK { Config.plain with memErr := [⟨0x1004, 0x1005⟩] } 0x1004 = false ∧
    AddrRange.has (dstRegion p1Job) 0x2003 = true ∧
    memOK { Config.plain with memErr := [⟨0x2002, 0x2100⟩] } 0x2003 = false := by decide +kernel

theorem witness_bus_open :
    (∀ a, (a ∈ neededAddrs p1Job (jobDims p1Job).1 (jobDims p1Job).2 ∨ AddrRange.has (dstRegion p1Job) a = true) →
      memOK { Config.plain with memErr := [⟨0x1007, 0x1008⟩] } a = true) ∧
    AddrRange.has (srcRegion p1Job) 0x1007 = true ∧
    memOK { Config.plain with memErr := [⟨0x1007, 0x1008⟩] } 0x1007 = false := by
  refine ⟨?_, by decide +kernel, by decide +kernel⟩
  have hn : ∀ a ∈ neededAddrs p1Job (jobDims p1Job).1 (jobDims p1Job).2,
      memOK { Config.plain with memErr := [⟨0x1007, 0x1008⟩] } a = true := by decide +kernel
  have hl : (dstRegion p1Job).lo = 0x2000 := by decide +kernel
  rintro a (ha | ha)
  · exact hn a ha
  · simp only [AddrRange.has, hl, Bool.and_eq_true, decide_eq_true_eq] at ha
    have h1 : ¬ a < 0x1008 := by omega
    simp [memOK, AddrRange.has, h1]

theorem witness_bus_clean : ∀ a, memOK Config.plain a = true := fun _ => rfl

theorem witness_completion : p1Busy.phase = .busy ∧ regionsNormal p1Busy.config p1Busy.job = true ∧
    runJob p1Busy.config p1Busy.job p1Busy.mem (Config.freeChoice p1Busy.draws) =
      .ok 4 2 [0x0F#8, 0x49#8, 0x28#8, 0x14#8] ∧
    runJob p1Busy.config { p1Job with oh := 0#16 } p1Busy.mem (Config.freeChoice p1Busy.draws) =
      .err .invalidDimensions := by decide +kernel

theorem witness_legal_busy : RegsLegal p1Busy ∧ MemLegal p1Busy ∧ isNext (completionStep p1Busy) = true ∧
    isNext (step p1Busy) = true := by
  refine ⟨?_, by unfold MemLegal; decide +kernel, by decide +kernel, by decide +kernel⟩
  simp [RegsLegal, FlagsLegal, ResultsLegal, p1Busy, p1Setup, State.reset]

theorem witness_legal_finished : RegsLegal finished ∧ RegsLegal failed := by
  constructor <;> simp [RegsLegal, FlagsLegal, ResultsLegal, finished, failed, State.reset]

theorem witness_engine_frame : checkJob p1Job = none ∧ AddrRange.has (srcRegion p1Job) 0x101F = true ∧
    (checkJob { p1Job with ow := 0#16 }).isSome = true ∧
    isNext (completionStep { p1Busy with job := { p1Job with ow := 0#16 } }) = true := by decide +kernel

/-- Two memories that differ in an A byte and in a byte outside the source. -/
theorem witness_same_colours :
    SameColours p1Job p1Source (Memory.write (Memory.write p1Source 0x1003 0x55#8) 0x2000 0x66#8) ∧
    Memory.read p1Source 0x1003 ≠ 0x55#8 := by
  refine ⟨?_, by decide +kernel⟩
  intro sx sy c hx hy hc
  have e : p1Job.src.toNat = 0x1000 := rfl
  have w : p1Job.ow.toNat = 4 := rfl
  have h : p1Job.oh.toNat = 2 := rfl
  rw [w] at hx
  rw [h] at hy
  have ha : channelAddr p1Job sx sy c = 0x1000 + 4 * (sy * 4 + sx) + c := by rw [channelAddr, e, w]
  rw [ha, read_write_other _ _ _ _ (by omega), read_write_other _ _ _ _ (by omega)]

/-- P1 scaled to 2x1 by nearest needs source pixels (1, 1) and (3, 1) alone: a memory that differs in pixel (0, 0), a byte
of SRC_REGION outside NEED. -/
theorem witness_same_needed :
    (∀ a ∈ neededAddrs { p1Job with maxDim := 2#16 } (jobDims { p1Job with maxDim := 2#16 }).1
        (jobDims { p1Job with maxDim := 2#16 }).2,
      Memory.read (Memory.write p1Source 0x1000 0x55#8) a = Memory.read p1Source a) ∧
    neededAddrs { p1Job with maxDim := 2#16 } 2 1 = [0x1014, 0x1015, 0x1016, 0x101C, 0x101D, 0x101E] ∧
    Memory.read p1Source 0x1000 ≠ 0x55#8 := by decide +kernel

theorem witness_unscaled_job : p1Job.ow.toNat % 2 = 0 ∧ max p1Job.ow.toNat p1Job.oh.toNat ≤ p1Job.maxDim.toNat ∧
    runJob Config.plain { p1Job with filter := true } p1Source false = .ok 4 2 [0x0F#8, 0x49#8, 0x28#8, 0x14#8] := by
  decide +kernel

theorem witness_commute : p1Busy.phase = .busy ∧ (Instr.wrDstAddr 0x1000#32).isSetup = true ∧
    (Instr.wrCtrl 0x6#32).isSetup = true ∧ isNext (completionStep p1Busy) = true ∧
    exec (.wrDstAddr 0x1000#32) p1Busy = .next (after (exec (.wrDstAddr 0x1000#32) p1Busy)) := by
  refine ⟨rfl, rfl, rfl, by decide +kernel, rfl⟩

theorem witness_reset_event : isNext (resetTurn p1Busy) = true ∧ isNext (resetTurn finished) = true ∧
    regionsNormal p1Busy.config p1Busy.job = true ∧ (checkJob { p1Job with ow := 0#16 }).isSome = true := by
  decide +kernel

theorem witness_table_word : decodeTableWord 41 0x10400000001 = some (.startNearest 0x1#32) := by decide

theorem witness_job_end_after_transactions :
    RegsLegal { p1Busy with events := [.transaction 0x00800000000#41, .transaction 0x10400000003#41] } ∧
    (∀ e ∈ [Event.transaction 0x00800000000#41, Event.transaction 0x10400000003#41], e.isTransaction = true) ∧
    regionsNormal p1Busy.config p1Busy.job = true := by
  refine ⟨?_, by decide, by decide +kernel⟩
  simp [RegsLegal, FlagsLegal, ResultsLegal, p1Busy, p1Setup, State.reset]

theorem witness_host_accesses : inRegions p1Busy.job 0x101F = true ∧ inRegions p1Busy.job 0x2003 = true ∧
    inRegions p1Busy.job 0x2004 = false ∧ inDstRegion p1Busy.job 0x1FFF = false ∧ inDstRegion p1Busy.job 0x2003 = true ∧
    isDevice p1Busy.config 0x101F = false ∧ 0x101F < addressSpace := by decide +kernel

/-- A host write outside both regions while P1's job goes on. -/
theorem witness_stable_source :
    isNext (step { p1Busy with events := [.hostWrite 0x1020 1#8] }) = true ∧
    (after (step { p1Busy with events := [.hostWrite 0x1020 1#8] })).phase = .busy ∧ checkJob p1Busy.job = none ∧
    inRegions p1Busy.job 0x101F = true ∧ inRegions p1Busy.job 0x2000 = true := by decide +kernel

end Sys2Proof.Tests
end

/-! SUPPORT. What a transaction, a setup write, the completion step, the reset event and a step can do, each said once: the
facts that the statements about the state of the block (spec/10_state.md) share. -/

namespace Sys2Proof.Machine

/-! ### The setup registers as one value -/

/-- The CTRL fields and the configuration registers (10_state R26, R27, R34 to R38): all that the job latch does not shield
from a write while BUSY (R42). -/
structure Setup where
  filter : Bool
  irqEn : Bool
  srcAddr : Word
  srcW : Half
  srcH : Half
  maxDim : Half
  dstAddr : Word

/-- The setup registers of a state. -/
@[simps] def State.setup (s : State) : Setup :=
  { filter := s.filter, irqEn := s.irqEn, srcAddr := s.srcAddr, srcW := s.srcW, srcH := s.srcH, maxDim := s.maxDim,
    dstAddr := s.dstAddr }

/-- The state with other setup registers and nothing else changed. -/
@[simps] def State.withSetup (s : State) (c : Setup) : State :=
  { s with filter := c.filter, irqEn := c.irqEn, srcAddr := c.srcAddr, srcW := c.srcW, srcH := c.srcH,
           maxDim := c.maxDim, dstAddr := c.dstAddr }

/-- A setup write changes the setup registers, and what it makes of them depends on them alone (70 R322). -/
theorem exec_of_isSetup (i : Instr) (h : i.isSetup = true) :
    ∃ g : Setup → Setup, ∀ s, exec i s = .next (s.withSetup (g s.setup)) := by
  cases i with
  | wrCtrl w => exact ⟨fun c => { c with filter := wdataFilter w, irqEn := wdataIrqEn w }, fun _ => rfl⟩
  | wrSrcAddr w => exact ⟨fun c => { c with srcAddr := w }, fun _ => rfl⟩
  | wrSrcSize w => exact ⟨fun c => { c with srcW := wdataSrcW w, srcH := wdataSrcH w }, fun _ => rfl⟩
  | wrMaxDim w => exact ⟨fun c => { c with maxDim := wdataMaxDim w }, fun _ => rfl⟩
  | wrDstAddr w => exact ⟨fun c => { c with dstAddr := w }, fun _ => rfl⟩
  | _ => cases h

/-! ### A transaction -/

/-- A transaction, everything it can do (spec/40_host_commands.md): a START; a CTRL write; a STATUS write; or, for every
other kind, a response and new setup registers with the same IRQ_EN. -/
theorem exec_cases (i : Instr) (s t : State) (h : exec i s = .next t) :
    (∃ w, (i = .startNearest w ∨ i = .startBilinear w) ∧ t = startJob (ctrlUpdate w s)) ∨
    (∃ w, i = .wrCtrl w ∧ t = ctrlUpdate w s) ∨
    (∃ w, i = .wrStatus w ∧ t = acknowledge (wdataClearDone w) (wdataClearErr w) s) ∨
    (i.isStart = false ∧ ∃ c v, c.irqEn = s.irqEn ∧ t = respond v (s.withSetup c)) := by
  cases i with
  | startNearest w => exact .inl ⟨w, .inl rfl, (Host.Outcome.next.inj h).symm⟩
  | startBilinear w => exact .inl ⟨w, .inr rfl, (Host.Outcome.next.inj h).symm⟩
  | wrCtrl w => exact .inr (.inl ⟨w, rfl, (Host.Outcome.next.inj h).symm⟩)
  | wrStatus w => exact .inr (.inr (.inl ⟨w, rfl, (Host.Outcome.next.inj h).symm⟩))
  | wrSrcAddr w =>
    exact .inr (.inr (.inr ⟨rfl, { s.setup with srcAddr := w }, s.rdata, rfl, (Host.Outcome.next.inj h).symm⟩))
  | wrSrcSize w =>
    exact .inr (.inr (.inr ⟨rfl, { s.setup with srcW := wdataSrcW w, srcH := wdataSrcH w }, s.rdata, rfl,
      (Host.Outcome.next.inj h).symm⟩))
  | wrMaxDim w =>
    exact .inr (.inr (.inr ⟨rfl, { s.setup with maxDim := wdataMaxDim w }, s.rdata, rfl,
      (Host.Outcome.next.inj h).symm⟩))
  | wrDstAddr w =>
    exact .inr (.inr (.inr ⟨rfl, { s.setup with dstAddr := w }, s.rdata, rfl, (Host.Outcome.next.inj h).symm⟩))
  | wrId _ | wrOutW _ | wrOutH _ | wrOutLen _ | wrRsv _ _ =>
    exact .inr (.inr (.inr ⟨rfl, s.setup, s.rdata, rfl, (Host.Outcome.next.inj h).symm⟩))
  | rdId | rdCtrl | rdStatus | rdSrcAddr | rdSrcSize | rdMaxDim | rdDstAddr | rdOutW | rdOutH | rdOutLen | rdRsv _ =>
    exact .inr (.inr (.inr ⟨rfl, s.setup, _, rfl, (Host.Outcome.next.inj h).symm⟩))

/-- A transaction touches neither memory, the host's byte, the events, the free values nor the parameters (20_memory R60,
10_state R47). -/
theorem exec_frame (i : Instr) (s t : State) (h : exec i s = .next t) :
    t.mem = s.mem ∧ t.hostByte = s.hostByte ∧ t.events = s.events ∧ t.draws = s.draws ∧ t.config = s.config := by
  rcases exec_cases i s t h with ⟨w, -, rfl⟩ | ⟨w, -, rfl⟩ | ⟨w, -, rfl⟩ | ⟨-, c, v, -, rfl⟩
  · obtain ⟨hm, -, hb, he, hd, hc, -⟩ := startJob_frame (ctrlUpdate w s)
    exact ⟨hm, hb, he, hd, hc⟩
  all_goals exact ⟨rfl, rfl, rfl, rfl, rfl⟩

/-- A transaction that is no START changes neither PHASE, JOB, ERRCODE nor a result (10_state R47). -/
theorem exec_keeps_job_of_not_start (i : Instr) (s t : State) (h : exec i s = .next t) (hi : i.isStart = false) :
    t.phase = s.phase ∧ t.job = s.job ∧ t.errcode = s.errcode ∧ t.outW = s.outW ∧ t.outH = s.outH ∧
    t.outLen = s.outLen := by
  rcases exec_cases i s t h with ⟨w, rfl | rfl, -⟩ | ⟨w, -, rfl⟩ | ⟨w, -, rfl⟩ | ⟨-, c, v, -, rfl⟩
  · cases hi
  · cases hi
  all_goals exact ⟨rfl, rfl, rfl, rfl, rfl, rfl⟩

/-- A transaction that is neither a START nor a STATUS write leaves DONE and ERR as they are (10_state R30, R31). -/
theorem exec_keeps_flags (i : Instr) (s t : State) (h : exec i s = .next t) (hi : i.isStart = false)
    (hw : ∀ w, i ≠ .wrStatus w) : t.done = s.done ∧ t.err = s.err := by
  rcases exec_cases i s t h with ⟨w, rfl | rfl, -⟩ | ⟨w, -, rfl⟩ | ⟨w, rfl, -⟩ | ⟨-, c, v, -, rfl⟩
  · cases hi
  · cases hi
  · exact ⟨rfl, rfl⟩
  · exact absurd rfl (hw w)
  · exact ⟨rfl, rfl⟩

/-- W1C only clears. -/
theorem bit_of_w1c {bit write : Bool} (h : w1c bit write = true) : bit = true := by
  simp only [w1c, Bool.and_eq_true] at h
  exact h.1

/-- No transaction sets DONE or ERR (60 R273). -/
theorem exec_sets_no_flag (i : Instr) (s t : State) (h : exec i s = .next t) :
    (t.done = true → s.done = true) ∧ (t.err = true → s.err = true) := by
  rcases exec_cases i s t h with ⟨w, -, rfl⟩ | ⟨w, -, rfl⟩ | ⟨w, -, rfl⟩ | ⟨-, c, v, -, rfl⟩
  · rcases startJob_cases (ctrlUpdate w s) with ⟨-, hb⟩ | ⟨-, hidle⟩
    · rw [hb]; exact ⟨id, id⟩
    · rw [hidle]; exact ⟨nofun, nofun⟩
  · exact ⟨id, id⟩
  · exact ⟨bit_of_w1c, bit_of_w1c⟩
  · exact ⟨id, id⟩

/-- While BUSY no transaction changes JOB: a START has no effect on the job (10_state R42, 40 R125). -/
theorem exec_keeps_job_of_busy (i : Instr) (s t : State) (h : exec i s = .next t) (hb : s.phase = .busy) :
    t.job = s.job := by
  rcases exec_cases i s t h with ⟨w, -, rfl⟩ | ⟨w, -, rfl⟩ | ⟨w, -, rfl⟩ | ⟨-, c, v, -, rfl⟩
  · rw [startJob_busy (ctrlUpdate w s) hb]; rfl
  all_goals rfl

/-! ### The completion step and the reset event -/

/-- The completion step ends a job in one of two ways (44 R240): by error entry, or, for a job that passed its checks, by
publishing its result. -/
theorem completionStep_ends (s t : State) (h : completionStep s = .next t) :
    (∃ e, t = errorEntry e (spendChoice s)) ∨
    (checkJob s.job = none ∧ ∃ bytes, bytes.length = packedLen (jobDims s.job) ∧
      t = publish (jobDims s.job).1 (jobDims s.job).2 bytes (spendChoice s)) := by
  obtain ⟨-, ⟨e, -, ht⟩ | ⟨-, -, ht⟩ | ⟨hc, -, ht⟩⟩ := completionStep_cases s t h
  · exact .inl ⟨e, ht⟩
  · exact .inl ⟨.busError, ht⟩
  · exact .inr ⟨hc, _, length_jobBytes _ _ _ _ _, ht⟩

/-- The completion step leaves the block IDLE, with DONE or ERR set; it changes neither the setup registers nor the
parameters (44 R240). -/
theorem completionStep_next (s t : State) (h : completionStep s = .next t) :
    t.phase = .idle ∧ (t.done || t.err) = true ∧ t.setup = s.setup ∧ t.config = s.config := by
  rcases completionStep_ends s t h with ⟨e, rfl⟩ | ⟨-, bytes, -, rfl⟩ <;> simp [State.setup]

theorem scrambleDst_withSetup (s : State) (c : Setup) : scrambleDst (s.withSetup c) = (scrambleDst s).withSetup c := by
  unfold scrambleDst
  rw [State.withSetup_job]
  cases checkJob s.job <;> rfl

/-- Publishing an outcome reads no setup register. -/
theorem finishJob_withSetup (o : JobOutcome) (s : State) (c : Setup) :
    finishJob o (s.withSetup c) = (finishJob o s).withSetup c := by
  cases o with
  | ok w h bytes => rfl
  | err e =>
    by_cases he : e = .busError
    · subst he
      simp only [finishJob, errorEntry, if_true, scrambleDst_withSetup]
      rfl
    · simp only [finishJob, errorEntry_of_check e he]
      rfl

/-- The completion step reads no setup register: it works on JOB (10_state R42, 70 R322). -/
theorem completionStep_withSetup (s t : State) (c : Setup) (h : completionStep s = .next t) :
    completionStep (s.withSetup c) = .next (t.withSetup c) := by
  unfold completionStep at h ⊢
  split at h
  · next hr =>
    rw [State.withSetup_config, State.withSetup_job, if_pos hr, ← Host.Outcome.next.inj h, ← finishJob_withSetup]
    rfl
  · cases h

/-- The reset event goes on where no job is running and where the job's regions lie on normal memory (20_memory R71). -/
theorem resetTurn_goes_on (s : State) (h : s.phase = .idle ∨ regionsNormal s.config s.job = true) :
    GoesOn (resetTurn s) := by
  refine ⟨resetBlock s, if_neg ?_⟩
  rintro ⟨hb, hr⟩
  rcases h with hi | hn
  · cases hb.symm.trans hi
  · cases hn.symm.trans hr

/-- Memory after the reset event (70 R300). -/
theorem resetBlock_mem (s : State) :
    (resetBlock s).mem = if s.phase = .busy then (scrambleDst s).mem else s.mem := by
  unfold resetBlock
  split <;> rfl

/-- With no DST_REGION to abort, the reset event leaves memory as it is (20_memory R65). -/
theorem resetBlock_mem_of_no_region (s : State) (h : s.phase = .idle ∨ (checkJob s.job).isSome = true) :
    (resetBlock s).mem = s.mem := by
  rw [resetBlock_mem]
  split
  · next hb =>
    rcases h with hi | hc
    · cases hb.symm.trans hi
    · rw [scrambleDst_of_check s hc]
  · rfl

/-- A reset while BUSY changes no byte outside DST_REGION (70 R300). -/
theorem resetBlock_mem_of_busy (s : State) (h : s.phase = .busy) :
    SameOutside (dstRegion s.job).lo (dstRegion s.job).hi s.mem (resetBlock s).mem := by
  rw [resetBlock_mem, if_pos h]
  exact scrambleDst_outside s

/-- After the reset event every register reads as in the reset state (10_state R44, 70 R300). -/
theorem readReg_resetBlock (r : Reg) (s : State) : readReg r (resetBlock s) = readReg r State.reset := by
  cases r <;> rfl

/-! ### The step -/

theorem dropEvent_of_no_event (s : State) (h : s.events = []) : dropEvent s = s := by
  cases s
  cases h
  rfl

/-- The step by its next event (40 R146): the engine's turn, a transaction, the reset event, or the host's own access to
memory, each on the state without that event. -/
theorem step_next (s t : State) (h : step s = .next t) :
    ((s.events = [] ∨ ∃ es, s.events = .engine :: es) ∧ engineTurn (dropEvent s) = .next t) ∨
    (∃ w es, s.events = .transaction w :: es ∧ exec (decode w) (dropEvent s) = .next t) ∨
    (∃ es, s.events = .reset :: es ∧ t = resetBlock (dropEvent s)) ∨
    (∃ a v es, s.events = .hostWrite a v :: es ∧ hostWriteTurn a v (dropEvent s) = .next t) ∨
    (∃ a es, s.events = .hostRead a :: es ∧ hostReadTurn a (dropEvent s) = .next t) := by
  rcases step_cases s t h with ⟨he, ht⟩ | ⟨e, es, he, ht⟩
  · exact .inl ⟨.inl he, by rw [dropEvent_of_no_event s he]; exact ht⟩
  · cases e with
    | engine => exact .inl ⟨.inr ⟨es, he⟩, ht⟩
    | transaction w => exact .inr (.inl ⟨w, es, he, ht⟩)
    | reset => exact .inr (.inr (.inl ⟨es, he, resetTurn_next _ t ht⟩))
    | hostWrite a v => exact .inr (.inr (.inr (.inl ⟨a, v, es, he, ht⟩)))
    | hostRead a => exact .inr (.inr (.inr (.inr ⟨a, es, he, ht⟩)))

/-- The host's own write changes memory and no register (20_memory R60). -/
theorem hostWriteTurn_mem_only (a : Nat) (v : Byte) (s t : State) (h : hostWriteTurn a v s = .next t) :
    ∃ m, t = { s with mem := m } := by
  obtain ⟨-, -, -, ht⟩ := hostWriteTurn_next a v s t h
  exact ⟨_, ht⟩

/-- The host's own read changes the host's byte and the count of free values, and no register (20_memory R74). -/
theorem hostReadTurn_byte_only (a : Nat) (s t : State) (h : hostReadTurn a s = .next t) :
    ∃ b d, t = { s with hostByte := b, draws := d } := by
  obtain ⟨-, -, ⟨-, -, ht⟩ | ⟨-, ht⟩⟩ := hostReadTurn_next a s t h
  · exact ⟨_, _, ht⟩
  · exact ⟨_, s.draws, ht⟩

/-! ### The target dimensions of a job that passed its checks -/

/-- `rhu(p, q) ≤ k` where p/q is at most k (00_scope R7). -/
theorem rhu_le {p q k : Nat} (hq : 0 < q) (h : p ≤ k * q) : rhu p q ≤ k := by
  rw [rhu, ← Nat.lt_succ_iff, Nat.div_lt_iff_lt_mul (by omega)]
  calc 2 * p + q < 2 * (k * q) + 2 * q := by omega
    _ = (k + 1) * (2 * q) := by ring

/-- Step 1 enlarges neither side (41 R161). -/
theorem scaleDown_le (ow oh m : Nat) (hw : 0 < ow) (hh : 0 < oh) :
    (scaleDown ow oh m).1 ≤ ow ∧ (scaleDown ow oh m).2 ≤ oh := by
  unfold scaleDown
  split
  · split
    · have hm : m ≤ ow := by omega
      exact ⟨hm, rhu_le hw (Nat.mul_le_mul_left oh hm)⟩
    · have hm : m ≤ oh := by omega
      exact ⟨rhu_le hh (Nat.mul_le_mul_left ow hm), hm⟩
  · exact ⟨le_rfl, le_rfl⟩

/-- The target width is even and at most the source's or 2, the target height at most twice the source's (41 R162, R166). -/
theorem targetDims_le (ow oh m : Nat) (hw : 0 < ow) (hh : 0 < oh) :
    (targetDims ow oh m).1 % 2 = 0 ∧ (targetDims ow oh m).1 ≤ max ow 2 ∧ (targetDims ow oh m).2 ≤ 2 * oh := by
  obtain ⟨hw1, hh1⟩ := scaleDown_le ow oh m hw hh
  unfold targetDims evenWidth
  generalize scaleDown ow oh m = d at hw1 hh1 ⊢
  by_cases hodd : d.1 % 2 = 1
  · by_cases hone : d.1 > 1
    · simp only [hodd, hone, if_true]
      have hle : oh * (d.1 - 1) ≤ oh * ow := Nat.mul_le_mul_left oh (by omega)
      have hrhu : rhu (oh * (d.1 - 1)) ow ≤ oh := rhu_le hw hle
      omega
    · simp only [hodd, hone, if_true, if_false]
      have hle : oh * 2 ≤ 2 * oh * ow := by rw [Nat.mul_comm oh 2]; exact Nat.le_mul_of_pos_right _ hw
      exact ⟨trivial, by omega, rhu_le hw hle⟩
  · rw [if_neg hodd]
    omega

/-- The result a job that passed its checks reports is within the bounds of 41 R166. -/
theorem jobDims_bounds (j : Job) (h : checkJob j = none) :
    (jobDims j).1 % 2 = 0 ∧ 2 ≤ (jobDims j).1 ∧ (jobDims j).1 ≤ 65534 ∧
    1 ≤ (jobDims j).2 ∧ (jobDims j).2 ≤ 131070 ∧
    2 * packedLen (jobDims j) = (jobDims j).1 * (jobDims j).2 ∧ packedLen (jobDims j) < 2 ^ 32 := by
  obtain ⟨how, hoh, hw, hh⟩ := dims_of_check j h
  obtain ⟨heven, hwle, hhle⟩ := targetDims_le j.ow.toNat j.oh.toNat j.maxDim.toNat how hoh
  rw [← jobDims] at heven hwle hhle
  have hmul : (jobDims j).1 * (jobDims j).2 ≤ 65534 * 131070 := Nat.mul_le_mul (by omega) (by omega)
  have hdvd : 2 ∣ (jobDims j).1 * (jobDims j).2 := Dvd.dvd.mul_right (Nat.dvd_of_mod_eq_zero heven) _
  have hlen : 2 * packedLen (jobDims j) = (jobDims j).1 * (jobDims j).2 := Nat.mul_div_cancel' hdvd
  omega

/-! ### The register invariant -/

/-- An error code is one of 1 to 5 (60 R261). -/
theorem ErrCode.code_range (e : ErrCode) : e.code.toNat ≤ 5 ∧ e.code ≠ 0#4 := by
  cases e <;> decide

/-- While BUSY the flags and the results of a legal state are all 0 (10_state R45). -/
theorem regsLegal_busy (s : State) (hs : RegsLegal s) (hb : s.phase = .busy) :
    s.done = false ∧ s.err = false ∧ s.errcode = 0#4 ∧ s.outW = 0#32 ∧ s.outH = 0#32 ∧ s.outLen = 0#32 := by
  obtain ⟨⟨hbusy, -⟩, hzero | ⟨hi, -⟩⟩ := hs
  · obtain ⟨hd, he, hc⟩ := hbusy hb
    exact ⟨hd, he, hc, hzero⟩
  · cases hb.symm.trans hi

/-- Right after job start everything but PHASE is 0, which is legal (40 R125). -/
theorem startJob_keeps_regsLegal (s : State) (hs : RegsLegal s) : RegsLegal (startJob s) := by
  rcases startJob_cases s with ⟨-, h⟩ | ⟨-, h⟩
  · rw [h]; exact hs
  · rw [h]; simp [RegsLegal, FlagsLegal, ResultsLegal]

/-- The acknowledge only clears DONE and ERR, and every clause of the invariant allows that (60 R271). -/
theorem acknowledge_keeps_regsLegal (d e : Bool) (s : State) (hs : RegsLegal s) : RegsLegal (acknowledge d e s) := by
  obtain ⟨⟨hbusy, hex, hmax, herr, hdone⟩, hres⟩ := hs
  refine ⟨⟨fun hb => ?_, fun h => hex ⟨bit_of_w1c h.1, bit_of_w1c h.2⟩, hmax, fun h => herr (bit_of_w1c h),
    fun h => hdone (bit_of_w1c h)⟩, hres.imp id fun ⟨hi, he, hrest⟩ => ⟨hi, ?_, hrest⟩⟩
  · obtain ⟨hd, he, hc⟩ := hbusy hb
    exact ⟨by simp [w1c, hd], by simp [w1c, he], hc⟩
  · simp [w1c, he]

/-- Every transaction keeps the register invariant. -/
theorem exec_keeps_regsLegal (i : Instr) (s t : State) (h : exec i s = .next t) (hs : RegsLegal s) : RegsLegal t := by
  rcases exec_cases i s t h with ⟨w, -, rfl⟩ | ⟨w, -, rfl⟩ | ⟨w, -, rfl⟩ | ⟨-, c, v, -, rfl⟩
  · exact startJob_keeps_regsLegal (ctrlUpdate w s) hs
  · exact hs
  · exact acknowledge_keeps_regsLegal _ _ s hs
  · exact hs

/-- A job ended by error entry: no DONE, a code, and no result (60 R270). -/
theorem errorEntry_regsLegal (e : ErrCode) (s : State) (hs : RegsLegal s) (hb : s.phase = .busy) :
    RegsLegal (errorEntry e s) := by
  obtain ⟨hd, -, -, hw, hh, hl⟩ := regsLegal_busy s hs hb
  obtain ⟨hmax, hne⟩ := e.code_range
  constructor
  · simp [FlagsLegal, hd, hmax, hne]
  · exact .inl (by simp [hw, hh, hl])

/-- A result within the bounds of 41 R166, published, is legal (44 R240). -/
theorem publish_regsLegal (j : Job) (bytes : List Byte) (s : State) (hs : RegsLegal s) (hb : s.phase = .busy)
    (hc : checkJob j = none) (hlen : bytes.length = packedLen (jobDims j)) :
    RegsLegal (publish (jobDims j).1 (jobDims j).2 bytes s) := by
  obtain ⟨-, he, hcode, -⟩ := regsLegal_busy s hs hb
  obtain ⟨heven, hw2, hw, hh1, hh, hmul, hfit⟩ := jobDims_bounds j hc
  have hwNat : (BitVec.ofNat 32 (jobDims j).1).toNat = (jobDims j).1 := Nat.mod_eq_of_lt (by omega)
  have hhNat : (BitVec.ofNat 32 (jobDims j).2).toNat = (jobDims j).2 := Nat.mod_eq_of_lt (by omega)
  have hlNat : (BitVec.ofNat 32 (packedLen (jobDims j))).toNat = packedLen (jobDims j) := Nat.mod_eq_of_lt hfit
  constructor
  · simp [FlagsLegal, he, hcode]
  · right
    rw [publish_outW, publish_outH, publish_outLen, hlen, hwNat, hhNat, hlNat]
    exact ⟨rfl, he, hcode, heven, hw2, hw, hh1, hh, hmul⟩

/-- The completion step keeps the register invariant. -/
theorem completionStep_keeps_regsLegal (s t : State) (h : completionStep s = .next t) (hs : RegsLegal s)
    (hb : s.phase = .busy) : RegsLegal t := by
  rcases completionStep_ends s t h with ⟨e, rfl⟩ | ⟨hc, bytes, hlen, rfl⟩
  · exact errorEntry_regsLegal e (spendChoice s) hs hb
  · exact publish_regsLegal s.job bytes (spendChoice s) hs hb hc hlen

theorem regsLegal_reset : RegsLegal State.reset := by
  simp [RegsLegal, FlagsLegal, ResultsLegal, State.reset]

/-- The register invariant speaks of registers that the reset event takes from the reset state. -/
theorem regsLegal_resetBlock (s : State) : RegsLegal (resetBlock s) := regsLegal_reset

/-! ### The interrupt line -/

/-- A START leaves irq low: in IDLE it clears both flags, in a legal BUSY state both are 0 (60 R275). -/
theorem irq_startJob (s : State) (h : s.phase = .idle ∨ RegsLegal s) : (startJob s).irq = false := by
  rcases startJob_cases s with ⟨hb, ht⟩ | ⟨-, ht⟩
  · rcases h with hi | hs
    · cases hb.symm.trans hi
    · obtain ⟨hd, he, -⟩ := regsLegal_busy s hs hb
      rw [ht, State.irq, hd, he, Bool.or_false, Bool.and_false]
  · rw [ht, State.irq, Bool.or_false, Bool.and_false]

/-- A transaction that is no START, no STATUS write and no CTRL write leaves irq as it is (60 R275). -/
theorem irq_exec_other (i : Instr) (s t : State) (h : exec i s = .next t) (hi : i.isStart = false)
    (hs : ∀ w, i ≠ .wrStatus w) (hc : ∀ w, i ≠ .wrCtrl w) : t.irq = s.irq := by
  rcases exec_cases i s t h with ⟨w, rfl | rfl, -⟩ | ⟨w, rfl, -⟩ | ⟨w, rfl, -⟩ | ⟨-, c, v, hirq, rfl⟩
  · cases hi
  · cases hi
  · exact absurd rfl (hc w)
  · exact absurd rfl (hs w)
  · simp [State.irq, hirq]

/-- The completion step sets a flag, so irq is then IRQ_EN (60 R275). -/
theorem irq_completionStep (s t : State) (h : completionStep s = .next t) : t.irq = s.irqEn := by
  obtain ⟨-, hflag, hsetup, -⟩ := completionStep_next s t h
  have hen : t.irqEn = s.irqEn := congrArg Setup.irqEn hsetup
  rw [State.irq, hflag, hen, Bool.and_true]

/-- The engine's turn does not take irq down. -/
theorem irq_engineTurn (s t : State) (h : engineTurn s = .next t) (hirq : s.irq = true) : t.irq = true := by
  rcases engineTurn_cases s t h with ⟨-, rfl⟩ | ⟨-, hc⟩
  · exact hirq
  · rw [irq_completionStep s t hc]
    simp only [State.irq, Bool.and_eq_true] at hirq
    exact hirq.1

end Sys2Proof.Machine

/-! The statements of the state family: spec/10_state.md. -/

namespace Sys2Proof.Proofs

open Sys2Proof.Machine

/-- Settles O47: the register invariant is kept by each of the five kinds of step. -/
theorem stepsKeepTheRegistersLegal : Obligations.StepsKeepTheRegistersLegal := by
  intro s t hs h
  have hd : RegsLegal (dropEvent s) := hs
  rcases step_next s t h with ⟨-, he⟩ | ⟨w, -, -, hx⟩ | ⟨-, -, rfl⟩ | ⟨a, v, -, -, hm⟩ | ⟨a, -, -, hr⟩
  · rcases engineTurn_cases _ t he with ⟨-, rfl⟩ | ⟨hb, hc⟩
    · exact hd
    · exact completionStep_keeps_regsLegal _ t hc hd hb
  · exact exec_keeps_regsLegal _ _ t hx hd
  · exact regsLegal_resetBlock _
  · obtain ⟨m, rfl⟩ := hostWriteTurn_mem_only a v _ t hm
    exact hd
  · obtain ⟨b, d, rfl⟩ := hostReadTurn_byte_only a _ t hr
    exact hd

/-- Settles O53: the engine's completion and reset end in IDLE, a transaction keeps JOB while BUSY, and a host write to a
region of the job has no step. -/
theorem runningJobSeesAStableSource : Obligations.RunningJobSeesAStableSource := by
  intro s t h hb htb _
  have hd : (dropEvent s).phase = .busy := hb
  rcases step_next s t h with ⟨-, he⟩ | ⟨w, -, -, hx⟩ | ⟨-, -, rfl⟩ | ⟨a, v, -, -, hm⟩ | ⟨a, -, -, hr⟩
  · rcases engineTurn_cases _ t he with ⟨hi, -⟩ | ⟨-, hc⟩
    · cases hd.symm.trans hi
    · obtain ⟨hidle, -⟩ := completionStep_next _ t hc
      cases hidle.symm.trans htb
  · obtain ⟨hmem, -⟩ := exec_frame _ _ t hx
    exact ⟨exec_keeps_job_of_busy _ (dropEvent s) t hx hd, fun b _ => by rw [hmem]; rfl⟩
  · cases htb
  · obtain ⟨-, -, hout, rfl⟩ := hostWriteTurn_next a v _ t hm
    refine ⟨rfl, fun b hin => read_write_other _ a b v ?_⟩
    rintro rfl
    exact hout ⟨hd, hin⟩
  · obtain ⟨b, d, rfl⟩ := hostReadTurn_byte_only a _ t hr
    exact ⟨rfl, fun _ _ => rfl⟩

/-- Settles O18, from the frame of the transactions, part by part. -/
theorem onlyStartHasSideEffectsOnFlags : Obligations.OnlyStartHasSideEffectsOnFlags := fun i s t h =>
  ⟨exec_frame i s t h, exec_keeps_job_of_not_start i s t h, exec_keeps_flags i s t h, exec_sets_no_flag i s t h⟩

/-- Settles O20, clause by clause, from what each kind of transaction, the completion step and the step do to irq. -/
theorem interruptFollowsItsBits : Obligations.InterruptFollowsItsBits := by
  refine ⟨?statusWrite, ?ctrlWrite, ?start, fun s t i => irq_exec_other i s t, irq_completionStep, ?reset, ?falls⟩
  case statusWrite =>
    intro s t wdata h
    cases h
    rfl
  case ctrlWrite =>
    intro s t wdata h
    cases h
    rfl
  case start =>
    intro s t i h hi hs
    rcases exec_cases i s t h with ⟨w, -, rfl⟩ | ⟨w, rfl, -⟩ | ⟨w, rfl, -⟩ | ⟨hn, -⟩
    · exact irq_startJob (ctrlUpdate w s) hs
    · cases hi
    · cases hi
    · cases hn.symm.trans hi
  case reset =>
    intro s t h
    rw [resetTurn_next s t h]
    rfl
  case falls =>
    intro s t h hhigh hlow
    have hd : (dropEvent s).irq = true := hhigh
    rcases step_next s t h with ⟨-, he⟩ | ⟨w, es, hev, -⟩ | ⟨es, hev, -⟩ | ⟨a, v, -, -, hm⟩ | ⟨a, -, -, hr⟩
    · cases (irq_engineTurn _ t he hd).symm.trans hlow
    · exact ⟨_, es, hev, .inr rfl⟩
    · exact ⟨_, es, hev, .inl rfl⟩
    · obtain ⟨m, rfl⟩ := hostWriteTurn_mem_only a v _ t hm
      cases hd.symm.trans hlow
    · obtain ⟨b, d, rfl⟩ := hostReadTurn_byte_only a _ t hr
      cases hd.symm.trans hlow

/-- Settles O43: a setup write changes the setup registers only, and the completion step neither reads nor changes them. -/
theorem configurationWritesCommuteWithCompletion : Obligations.ConfigurationWritesCommuteWithCompletion := by
  intro s t u i _ hi hc hx
  obtain ⟨g, hg⟩ := exec_of_isSetup i hi
  obtain ⟨-, -, hsetup, -⟩ := completionStep_next s t hc
  obtain rfl : s.withSetup (g s.setup) = u := Host.Outcome.next.inj ((hg s).symm.trans hx)
  exact ⟨t.withSetup (g s.setup), completionStep_withSetup s t _ hc, by rw [hg t, hsetup]⟩

/-- Settles O44: the registers by evaluation of the reset event, memory by the two laws of its DST_REGION. -/
theorem resetEventRestoresTheRegisters : Obligations.ResetEventRestoresTheRegisters := by
  refine ⟨fun s t h => ?_, resetTurn_goes_on⟩
  obtain rfl := resetTurn_next s t h
  have hsame : SameSurroundings s (resetBlock s) := by simp [SameSurroundings]
  exact ⟨rfl, rfl, rfl, rfl, rfl, rfl, rfl, rfl, rfl, rfl, rfl, rfl, rfl, rfl, rfl, fun r => readReg_resetBlock r s, hsame,
    resetBlock_mem_of_no_region s, resetBlock_mem_of_busy s⟩

/-- Settles O49: none of the five kinds of step touches the parameters. -/
theorem noStepChangesTheParameters : Obligations.NoStepChangesTheParameters := by
  intro s t h
  rcases step_next s t h with ⟨-, he⟩ | ⟨w, -, -, hx⟩ | ⟨-, -, rfl⟩ | ⟨a, v, -, -, hm⟩ | ⟨a, -, -, hr⟩
  · rcases engineTurn_cases _ t he with ⟨-, rfl⟩ | ⟨-, hc⟩
    · rfl
    · obtain ⟨-, -, -, hconfig⟩ := completionStep_next _ t hc
      exact hconfig
  · obtain ⟨-, -, -, -, hconfig⟩ := exec_frame _ _ t hx
    exact hconfig
  · exact resetBlock_config (dropEvent s)
  · obtain ⟨m, rfl⟩ := hostWriteTurn_mem_only a v _ t hm
    rfl
  · obtain ⟨b, d, rfl⟩ := hostReadTurn_byte_only a _ t hr
    rfl

/-- Settles O45, register by register. -/
theorem resetStateReadsAsTheTable : Obligations.ResetStateReadsAsTheTable := by
  intro r
  cases r <;> exact ⟨rfl, rfl, rfl⟩

/-- Settles O46, from the two laws of the reset state. -/
theorem resetStateIsLegal : Obligations.ResetStateIsLegal := ⟨regsLegal_reset, wf_reset⟩

end Sys2Proof.Proofs

/-! SUPPORT. System memory and the engine (spec/20_memory.md): which bytes a job reads, that no operation leaves the address
space or writes outside DST_REGION, and the host's own accesses. -/

namespace Sys2Proof.Machine

/-! ### The bytes a job needs -/

/-- NEED, address by address (20_memory R67): the three colour bytes of the needed pixels of every output pixel. -/
theorem mem_neededAddrs_iff (j : Job) (w h a : Nat) :
    a ∈ neededAddrs j w h ↔
      ∃ x y c sx sy, x < w ∧ y < h ∧ c < 3 ∧ (sx, sy) ∈ neededPixels j w h x y ∧ a = channelAddr j sx sy c := by
  simp only [neededAddrs, List.mem_flatMap, List.mem_range, List.mem_cons, List.not_mem_nil, or_false]
  constructor
  · rintro ⟨i, hi, ⟨sx, sy⟩, hp, ha⟩
    have hw : 0 < w := Nat.pos_of_mul_pos_right (Nat.zero_lt_of_lt hi)
    have hx : i % w < w := Nat.mod_lt i hw
    have hy : i / w < h := Nat.div_lt_of_lt_mul hi
    rcases ha with ha | ha | ha
    · exact ⟨_, _, 0, sx, sy, hx, hy, by omega, hp, ha⟩
    · exact ⟨_, _, 1, sx, sy, hx, hy, by omega, hp, ha⟩
    · exact ⟨_, _, 2, sx, sy, hx, hy, by omega, hp, ha⟩
  · rintro ⟨x, y, c, sx, sy, hx, hy, hc, hp, rfl⟩
    have hmod : (x + w * y) % w = x := by rw [Nat.add_mul_mod_self_left, Nat.mod_eq_of_lt hx]
    have hdiv : (x + w * y) / w = y := by
      rw [Nat.add_mul_div_left x y (Nat.zero_lt_of_lt hx), Nat.div_eq_of_lt hx, Nat.zero_add]
    have hi : x + w * y < w * h :=
      calc x + w * y < w * (y + 1) := by rw [Nat.mul_succ]; omega
        _ ≤ w * h := Nat.mul_le_mul_left w hy
    refine ⟨x + w * y, hi, (sx, sy), by rwa [hmod, hdiv], ?_⟩
    interval_cases c <;> simp

/-- The needed pixels by the filter (41_resizer R174): the one of nearest, or the corners of bilinear. -/
theorem mem_neededPixels_iff (j : Job) (w h x y sx sy : Nat) :
    (sx, sy) ∈ neededPixels j w h x y ↔
      (j.filter = false → sx = nearestIndex j.ow.toNat w x ∧ sy = nearestIndex j.oh.toNat h y) ∧
      (j.filter = true → (sx = bilinearLow j.ow.toNat w x ∨ sx = bilinearHigh j.ow.toNat w x) ∧
        (sy = bilinearLow j.oh.toNat h y ∨ sy = bilinearHigh j.oh.toNat h y)) := by
  cases hf : j.filter with
  | false => simp [neededPixels, hf]
  | true =>
    simp only [neededPixels, hf, if_true, List.mem_cons, List.not_mem_nil, or_false, Prod.mk.injEq]
    tauto

/-- The index that nearest takes exists (41_resizer R170). -/
theorem nearestIndex_lt {o n x : Nat} (ho : 0 < o) (hx : x < n) : nearestIndex o n x < o := by
  rw [nearestIndex, Nat.div_lt_iff_lt_mul (by omega), Nat.mul_comm o]
  exact Nat.mul_lt_mul_of_pos_right (by omega) ho

/-- The lower corner of bilinear exists (41_resizer R172): the position is clamped to the last index. -/
theorem bilinearLow_lt {o : Nat} (n x : Nat) (ho : 0 < o) : bilinearLow o n x < o := by
  have hpos : bilinearPos o n x ≤ 2 * n * (o - 1) := by
    have hcast : (2 * n * (o - 1) : Int) = ((2 * n * (o - 1) : Nat) : Int) := by push_cast [ho]; ring
    rw [bilinearPos, clamp, hcast]
    omega
  have hlow : bilinearLow o n x ≤ o - 1 := Nat.div_le_of_le_mul hpos
  omega

/-- The upper corner of bilinear exists (41_resizer R172). -/
theorem bilinearHigh_lt {o : Nat} (n x : Nat) (ho : 0 < o) : bilinearHigh o n x < o := by
  rw [bilinearHigh]
  omega

/-- Every needed pixel is a pixel of the source (20_memory R67). -/
theorem neededPixels_lt (j : Job) {w h x y sx sy : Nat} (how : 0 < j.ow.toNat) (hoh : 0 < j.oh.toNat) (hx : x < w)
    (hy : y < h) (hp : (sx, sy) ∈ neededPixels j w h x y) : sx < j.ow.toNat ∧ sy < j.oh.toNat := by
  obtain ⟨hnearest, hbilinear⟩ := (mem_neededPixels_iff j w h x y sx sy).mp hp
  cases hf : j.filter with
  | false =>
    obtain ⟨rfl, rfl⟩ := hnearest hf
    exact ⟨nearestIndex_lt how hx, nearestIndex_lt hoh hy⟩
  | true =>
    obtain ⟨hsx, hsy⟩ := hbilinear hf
    have hxl := bilinearLow_lt w x how
    have hyl := bilinearLow_lt h y hoh
    have hxh := bilinearHigh_lt w x how
    have hyh := bilinearHigh_lt h y hoh
    omega

/-- Every byte that a passing job needs is a colour byte of a source pixel (20_memory R67). -/
theorem source_pixel_of_needed (j : Job) (a : Nat) (hc : checkJob j = none)
    (ha : a ∈ neededAddrs j (jobDims j).1 (jobDims j).2) :
    ∃ sx sy c, sx < j.ow.toNat ∧ sy < j.oh.toNat ∧ c < 3 ∧ a = channelAddr j sx sy c := by
  obtain ⟨x, y, c, sx, sy, hx, hy, hlt, hp, rfl⟩ := (mem_neededAddrs_iff j _ _ a).mp ha
  obtain ⟨how, hoh, -⟩ := dims_of_check j hc
  obtain ⟨hsx, hsy⟩ := neededPixels_lt j how hoh hx hy hp
  exact ⟨sx, sy, c, hsx, hsy, hlt, rfl⟩

/-- Every byte of a source pixel lies in SRC_REGION (20_memory R61, R65). -/
theorem srcRegion_has_channelAddr (j : Job) {sx sy c : Nat} (hx : sx < j.ow.toNat) (hy : sy < j.oh.toNat) (hc : c < 4) :
    AddrRange.has (srcRegion j) (channelAddr j sx sy c) = true := by
  have hpixel : sy * j.ow.toNat + sx + 1 ≤ j.ow.toNat * j.oh.toNat :=
    calc sy * j.ow.toNat + sx + 1 ≤ (sy + 1) * j.ow.toNat := by rw [Nat.succ_mul]; omega
      _ ≤ j.ow.toNat * j.oh.toNat := by rw [Nat.mul_comm]; exact Nat.mul_le_mul_left _ hy
  rw [has_iff]
  simp only [srcRegion, channelAddr, Nat.mul_assoc]
  omega

/-- The two regions of a passing job share no byte (20_memory R66, 60 R265). -/
theorem dstRegion_disjoint_srcRegion (j : Job) (a : Nat) (hc : checkJob j = none)
    (ha : AddrRange.has (srcRegion j) a = true) : ¬ AddrRange.has (dstRegion j) a = true := by
  obtain ⟨-, -, -, hoverlap⟩ := (checkJob_none_iff j).mp hc
  simp only [hasOverlap, Bool.and_eq_false_iff, decide_eq_false_iff_not] at hoverlap
  rw [has_iff] at ha ⊢
  omega

/-! ### What the outcome of a job reads -/

/-- Two pixels agree but for alpha (42_quantizer R190). -/
def Pixel.SameColour (p q : Pixel) : Prop := p.r = q.r ∧ p.g = q.g ∧ p.b = q.b

/-- The intensity of a pixel does not depend on alpha (42_quantizer R190, R194). -/
theorem quantize_of_sameColour (arith : LumaArith) {p q : Pixel} (h : p.SameColour q) :
    quantize arith p = quantize arith q := by
  obtain ⟨hr, hg, hb⟩ := h
  rw [quantize, quantize, hr, hg, hb]

/-- Mixing treats each channel by itself (41_resizer R172). -/
theorem mixPixel_sameColour (w h ax ay : Nat) {p00 p10 p01 p11 q00 q10 q01 q11 : Pixel} (h00 : p00.SameColour q00)
    (h10 : p10.SameColour q10) (h01 : p01.SameColour q01) (h11 : p11.SameColour q11) :
    (mixPixel w h ax ay p00 p10 p01 p11).SameColour (mixPixel w h ax ay q00 q10 q01 q11) := by
  obtain ⟨hr00, hg00, hb00⟩ := h00
  obtain ⟨hr10, hg10, hb10⟩ := h10
  obtain ⟨hr01, hg01, hb01⟩ := h01
  obtain ⟨hr11, hg11, hb11⟩ := h11
  simp only [Pixel.SameColour, mixPixel, hr00, hr10, hr01, hr11, hg00, hg10, hg01, hg11, hb00, hb10, hb01, hb11, and_self]

/-- The colour of an output pixel is a function of the colours of its needed pixels (41_resizer R174). -/
theorem resample_sameColour (j : Job) (m m' : Memory) (w h x y : Nat)
    (hsame : ∀ sx sy, (sx, sy) ∈ neededPixels j w h x y → (srcPixel j m' sx sy).SameColour (srcPixel j m sx sy)) :
    (resample j m' w h x y).SameColour (resample j m w h x y) := by
  unfold resample
  cases hf : j.filter with
  | false => exact hsame _ _ (by simp [neededPixels, hf])
  | true =>
    exact mixPixel_sameColour _ _ _ _ (hsame _ _ (by simp [neededPixels, hf])) (hsame _ _ (by simp [neededPixels, hf]))
      (hsame _ _ (by simp [neededPixels, hf])) (hsame _ _ (by simp [neededPixels, hf]))

/-- The intensity of output pixel `i` is a function of the bytes of NEED (41_resizer R174, 42_quantizer R190). -/
theorem jobIntensity_congr (arith : LumaArith) (j : Job) (m m' : Memory) {w h i : Nat} (hi : i < w * h)
    (hsame : ∀ a ∈ neededAddrs j w h, Memory.read m' a = Memory.read m a) :
    jobIntensity arith j m' w h i = jobIntensity arith j m w h i := by
  have hx : i % w < w := Nat.mod_lt i (Nat.pos_of_mul_pos_right (Nat.zero_lt_of_lt hi))
  have hy : i / w < h := Nat.div_lt_of_lt_mul hi
  refine quantize_of_sameColour arith (resample_sameColour j m m' w h _ _ fun sx sy hp => ?_)
  have hread : ∀ c < 3, Memory.read m' (channelAddr j sx sy c) = Memory.read m (channelAddr j sx sy c) := fun c hc =>
    hsame _ ((mem_neededAddrs_iff j w h _).mpr ⟨_, _, c, sx, sy, hx, hy, hc, hp, rfl⟩)
  exact ⟨hread 0 (by omega), hread 1 (by omega), hread 2 (by omega)⟩

/-- The packed bytes of a job are a function of the bytes of NEED (44 R232). -/
theorem jobBytes_congr (arith : LumaArith) (j : Job) (m m' : Memory) (w h : Nat)
    (hsame : ∀ a ∈ neededAddrs j w h, Memory.read m' a = Memory.read m a) :
    jobBytes arith j m' w h = jobBytes arith j m w h := by
  refine List.map_congr_left fun k hk => ?_
  have hlen : k < w * h / 2 := List.mem_range.mp hk
  rw [jobIntensity_congr arith j m m' (i := 2 * k) (by omega) hsame,
    jobIntensity_congr arith j m m' (i := 2 * k + 1) (by omega) hsame]

/-- RunJob reads memory in the packed bytes alone (44 R231, R232). -/
theorem runJob_congr (c : Config) (j : Job) (m m' : Memory) (choice : Bool)
    (hbytes : checkJob j = none → jobBytes c.lumaArith j m' (jobDims j).1 (jobDims j).2 =
      jobBytes c.lumaArith j m (jobDims j).1 (jobDims j).2) :
    runJob c j m' choice = runJob c j m choice := by
  unfold runJob
  cases hc : checkJob j with
  | some e => rfl
  | none => simp only [hbytes hc]

/-! ### The engine's writes -/

/-- Error entry leaves every byte outside DST_REGION alone (60 R269). -/
theorem errorEntry_outside (c : ErrCode) (s : State) :
    SameOutside (dstRegion s.job).lo (dstRegion s.job).hi s.mem (errorEntry c s).mem := by
  by_cases hc : c = .busError
  · subst hc
    exact scrambleDst_outside s
  · rw [errorEntry_mem_of_check c hc]
    exact fun _ _ => rfl

/-- The completion step leaves every byte outside DST_REGION alone (44 R235). -/
theorem completionStep_outside (s t : State) (h : completionStep s = .next t) :
    SameOutside (dstRegion s.job).lo (dstRegion s.job).hi s.mem t.mem := by
  rcases completionStep_ends s t h with ⟨e, rfl⟩ | ⟨-, bytes, hlen, rfl⟩
  · exact errorEntry_outside e (spendChoice s)
  · intro a ha
    exact read_writeRun_outside bytes s.mem _ a (by rwa [hlen])

/-- A job that fails a check changes no byte (60 R269). -/
theorem completionStep_mem_of_check (s t : State) (h : completionStep s = .next t)
    (hc : (checkJob s.job).isSome = true) : t.mem = s.mem := by
  obtain ⟨-, ⟨e, he, rfl⟩ | ⟨hn, -⟩ | ⟨hn, -⟩⟩ := completionStep_cases s t h
  · rw [errorEntry_mem_of_check e (fun hb => checkJob_ne_busError s.job (hb ▸ he))]
    rfl
  · simp [hn] at hc
  · simp [hn] at hc

/-- The completion step keeps memory in canonical form: the bytes of a passing job end within the address space
(20_memory R69). -/
theorem completionStep_keeps_memLegal (s t : State) (h : completionStep s = .next t) (hs : MemLegal s) : MemLegal t := by
  rcases completionStep_ends s t h with ⟨e, rfl⟩ | ⟨hc, bytes, hlen, rfl⟩
  · exact errorEntry_wf e (spendChoice s) hs
  · have hend : s.job.dst.toNat + bytes.length ≤ addressSpace := hlen ▸ (region_end_of_check s.job hc).2
    exact wf_writeRun bytes s.mem _ hend hs

/-! ### The host's own accesses -/

/-- A host write to a region of the running job has no step (20_memory R79). -/
theorem hostWriteTurn_refused (s : State) (a : Nat) (v : Byte) (hb : s.phase = .busy) (hin : inRegions s.job a = true)
    (ha : a < addressSpace) (hd : isDevice s.config a = false) :
    hostWriteTurn a v s = .refused .regionWrittenWhileBusy := by
  simp [hostWriteTurn, Nat.not_le.mpr ha, hd, hb, hin]

/-- Any other host write to plain memory that exists is made (20_memory R60). -/
theorem hostWriteTurn_writes (s : State) (a : Nat) (v : Byte) (hfree : s.phase = .idle ∨ inRegions s.job a = false)
    (ha : a < addressSpace) (hd : isDevice s.config a = false) :
    hostWriteTurn a v s = .next { s with mem := Memory.write s.mem a v } := by
  rcases hfree with hi | hout
  · simp [hostWriteTurn, Nat.not_le.mpr ha, hd, hi]
  · simp [hostWriteTurn, Nat.not_le.mpr ha, hd, hout]

/-- A host read that is not of the running job's DST_REGION returns the byte (20_memory R74). -/
theorem hostReadTurn_reads (s : State) (a : Nat) (hfree : s.phase = .idle ∨ inDstRegion s.job a = false)
    (ha : a < addressSpace) (hd : isDevice s.config a = false) :
    hostReadTurn a s = .next { s with hostByte := Memory.read s.mem a } := by
  rcases hfree with hi | hout
  · simp [hostReadTurn, Nat.not_le.mpr ha, hd, hi]
  · simp [hostReadTurn, Nat.not_le.mpr ha, hd, hout]

end Sys2Proof.Machine

/-! The words that the decoder gives and the step that runs one. -/

namespace Sys2Proof

theorem decodeRead_wf (off : Byte) : (decodeRead off).wf = true := by
  unfold decodeRead
  split
  case h_11 hnone => simp [Instr.wf, hnone]
  all_goals rfl

theorem decodeCtrlWrite_wf (wdata : Word) : (decodeCtrlWrite wdata).wf = true := by
  unfold decodeCtrlWrite
  split
  · next hstart =>
    split
    · next hfilter => simp only [Instr.wf, hstart, hfilter, Bool.and_self]
    · next hfilter => simp only [Instr.wf, hstart, hfilter, Bool.not_false, Bool.and_self]
  · next hstart => simp only [Instr.wf, hstart, Bool.not_false]

theorem decodeWrite_wf (off : Byte) (wdata : Word) : (decodeWrite off wdata).wf = true := by
  unfold decodeWrite
  split
  case h_2 => exact decodeCtrlWrite_wf wdata
  case h_11 hnone => simp [Instr.wf, hnone]
  all_goals rfl

/-- Every word decodes to a well-formed transaction (30_encoding R93, R95). -/
theorem decode_wf (t : TWord) : (decode t).wf = true := by
  unfold decode
  split
  · exact decodeWrite_wf _ _
  · exact decodeRead_wf _

end Sys2Proof

namespace Sys2Proof.Machine

/-- A state with a table word placed has that word as its next event (log 1). -/
theorem withFetchWord_of_tableWord (s : State) (nbits w : Nat) (t : TWord) (h : tableWord nbits w = some t) :
    s.withFetchWord nbits w = { s with events := .transaction t :: s.events } := by
  rw [State.withFetchWord, h]

/-- A step with a transaction next runs it on the state without that event (40 R146). -/
theorem step_of_transaction (s : State) (t : TWord) (es : List Event) (h : s.events = .transaction t :: es) :
    step s = exec (decode t) { s with events := es } := by
  rw [step_of_event s _ es h, dropEvent, h]
  rfl

end Sys2Proof.Machine

/-! The statements of the memory family: spec/20_memory.md. -/

namespace Sys2Proof.Proofs

open Sys2Proof.Machine

/-- Settles O48: the engine and the reset event write within DST_REGION, which ends within the address space; the host writes
at an address that exists; no other step touches memory. -/
theorem stepsKeepMemoryCanonical : Obligations.StepsKeepMemoryCanonical := by
  intro s t hs h
  have hd : MemLegal (dropEvent s) := hs
  rcases step_next s t h with ⟨-, he⟩ | ⟨w, -, -, hx⟩ | ⟨-, -, rfl⟩ | ⟨a, v, -, -, hm⟩ | ⟨a, -, -, hr⟩
  · rcases engineTurn_cases _ t he with ⟨-, rfl⟩ | ⟨-, hc⟩
    · exact hd
    · exact completionStep_keeps_memLegal _ t hc hd
  · obtain ⟨hmem, -⟩ := exec_frame _ _ t hx
    rwa [MemLegal, hmem]
  · exact resetBlock_wf (dropEvent s) hd
  · obtain ⟨ha, -, -, rfl⟩ := hostWriteTurn_next a v _ t hm
    exact wf_write _ a v ha hd
  · obtain ⟨b, d, rfl⟩ := hostReadTurn_byte_only a _ t hr
    exact hd

/-- Settles O28: a needed byte is a byte of a source pixel, and the regions of a passing job end below 2^32 and do not
overlap. -/
theorem neededBytesLieInTheSource : Obligations.NeededBytesLieInTheSource := by
  intro j a hc ha
  obtain ⟨sx, sy, c, hsx, hsy, hlt, rfl⟩ := source_pixel_of_needed j a hc ha
  have hsrc := srcRegion_has_channelAddr j hsx hsy (Nat.lt_succ_of_lt hlt)
  obtain ⟨-, hhi⟩ := (has_iff _ _).mp hsrc
  exact ⟨hsrc, hhi.trans_le (region_end_of_check j hc).1, Bool.eq_false_iff.mpr (dstRegion_disjoint_srcRegion j _ hc hsrc)⟩

/-- Settles O40, from the frame of the completion step; SRC_REGION lies outside DST_REGION. -/
theorem engineWritesOnlyItsDestination : Obligations.EngineWritesOnlyItsDestination := by
  intro s t h
  refine ⟨completionStep_outside s t h, completionStep_mem_of_check s t h, fun hc a ha => ?_⟩
  refine completionStep_outside s t h a fun hin => ?_
  exact dstRegion_disjoint_srcRegion s.job a hc ha ((has_iff _ _).mpr hin)

/-- Settles O41: memories with the same source colours agree on NEED, and the packed bytes read nothing else. -/
theorem outcomeDependsOnSourceColoursOnly : Obligations.OutcomeDependsOnSourceColoursOnly := by
  intro c j m m' choice hsame
  refine runJob_congr c j m m' choice fun hc => jobBytes_congr c.lumaArith j m m' _ _ fun a ha => ?_
  rcases hsame with hneed | hcolours
  · exact hneed a ha
  · obtain ⟨sx, sy, k, hsx, hsy, hk, rfl⟩ := source_pixel_of_needed j a hc ha
    exact hcolours sx sy k hsx hsy hk

/-- Settles O52, access by access. -/
theorem hostAccessesToMemory : Obligations.HostAccessesToMemory := by
  refine ⟨hostWriteTurn_refused, fun s a v hfree ha hd => ?_, hostReadTurn_reads⟩
  refine ⟨_, hostWriteTurn_writes s a v hfree ha hd, rfl, read_write_same s.mem a v, fun b hb => ?_⟩
  exact read_write_other s.mem a b v (by omega)

/-- Settles O55, from NEED address by address and the needed pixels by the filter. -/
theorem needIsTheColoursOfTheSampledPixels : Obligations.NeedIsTheColoursOfTheSampledPixels := by
  intro j w h a
  simp only [mem_neededAddrs_iff, mem_neededPixels_iff, channelAddr]
  constructor
  · rintro ⟨x, y, c, sx, sy, hx, hy, hc, hp, ha⟩
    exact ⟨x, y, c, sx, sy, hx, hy, hc, ha, hp⟩
  · rintro ⟨x, y, c, sx, sy, hx, hy, hc, ha, hp⟩
    exact ⟨x, y, c, sx, sy, hx, hy, hc, hp, ha⟩

/-- Settles O50: the decoder gives well-formed transactions only, and a placed word is the next event. -/
theorem stepRunsTheDecodedTransaction : Obligations.StepRunsTheDecodedTransaction := by
  refine ⟨fun s t es h => ⟨step_of_transaction s t es h, decode_wf t⟩, fun s nbits w i h => ?_⟩
  obtain ⟨t, ht, rfl⟩ := Option.map_eq_some_iff.mp h
  rw [withFetchWord_of_tableWord s nbits w t ht]
  exact step_of_transaction _ t s.events rfl

end Sys2Proof.Proofs

/-! Words and transactions: a word is its three fields, the decoder reads them, and the encoder gives them back. -/

namespace Sys2Proof

/-- A word is `{WE, OFF, WDATA}` (30_encoding R90). -/
theorem packWord_fields (t : TWord) : packWord (TWord.we t) (TWord.off t) (TWord.wdata t) = t := by
  apply BitVec.eq_of_getLsbD_eq
  intro i hi
  rw [getLsbD_packWord]
  split
  · next hd => simp [TWord.wdata, hd]
  · next hd =>
    split
    · next ho => simp [TWord.off, ho, Nat.add_sub_of_le (Nat.le_of_not_lt hd)]
    · next ho =>
      have h40 : i = 40 := by omega
      subst h40
      simp [TWord.we]

/-- The masked OFF field is the mask of the OFF field. -/
theorem off_and (t u : TWord) : TWord.off (t &&& u) = TWord.off t &&& TWord.off u := BitVec.extractLsb'_and

/-- The masked WE bit is the mask of the WE bit. -/
theorem we_and (t u : TWord) : TWord.we (t &&& u) = (TWord.we t && TWord.we u) := BitVec.getLsbD_and

/-- A read word with its WDATA masked off is the word that encoders write (30_encoding R90). -/
theorem readWord_off_of_read (t : TWord) (h : TWord.we t = false) :
    readWord (TWord.off t) = t &&& 0x1FF00000000#41 := by
  have hoff : TWord.off t &&& 0xFF#8 = TWord.off t := BitVec.and_allOnes
  have hand := Laws.EncodeRow.packWord_and (TWord.we t) true (TWord.off t) 0xFF#8 (TWord.wdata t) 0#32
  rw [packWord_fields, ← Laws.EncodeRow.offset_mask, h, hoff, BitVec.and_zero] at hand
  exact hand.symm

/-- A register is at its own offset and at no other (10_state R23). -/
theorem offset_of_regAt (off : Byte) (r : Reg) (h : regAt off = some r) : off = Reg.offset r := by
  revert off
  cases r <;> decide

theorem decode_readWord (off : Byte) : decode (readWord off) = decodeRead off := by
  simp [decode, readWord]

theorem decode_writeWord (off : Byte) (wdata : Word) : decode (writeWord off wdata) = decodeWrite off wdata := by
  simp [decode, writeWord]

theorem decodeRead_reserved (off : Byte) (h : regAt off = none) : decodeRead off = .rdRsv off := by
  rw [decodeRead, h]

theorem decodeWrite_reserved (off : Byte) (wdata : Word) (h : regAt off = none) :
    decodeWrite off wdata = .wrRsv off wdata := by
  rw [decodeWrite, h]

theorem decodeWrite_ctrl (wdata : Word) : decodeWrite (Reg.offset .ctrl) wdata = decodeCtrlWrite wdata := by
  rw [decodeWrite, regAt_offset]

/-- The encoder undoes the decoding of a read (30_encoding R93). -/
theorem encode_decodeRead (off : Byte) : encode (decodeRead off) = readWord off := by
  cases hr : regAt off with
  | none => rw [decodeRead_reserved off hr, encode]
  | some r =>
    obtain rfl := offset_of_regAt off r hr
    cases r <;> rfl

/-- The encoder undoes the decoding of a CTRL write (30_encoding R94). -/
theorem encode_decodeCtrlWrite (wdata : Word) :
    encode (decodeCtrlWrite wdata) = writeWord (Reg.offset .ctrl) wdata := by
  unfold decodeCtrlWrite
  split
  · split <;> rfl
  · rfl

/-- The encoder undoes the decoding of a write (30_encoding R93). -/
theorem encode_decodeWrite (off : Byte) (wdata : Word) : encode (decodeWrite off wdata) = writeWord off wdata := by
  cases hr : regAt off with
  | none => rw [decodeWrite_reserved off wdata hr, encode]
  | some r =>
    obtain rfl := offset_of_regAt off r hr
    cases r with
    | ctrl => rw [decodeWrite_ctrl, encode_decodeCtrlWrite]
    | _ => rfl

/-- A write word is the encoding of what it decodes to (30_encoding R90). -/
theorem encode_decode_of_write (t : TWord) (h : TWord.we t = true) : encode (decode t) = t := by
  rw [decode, if_pos h, encode_decodeWrite, writeWord, ← h, packWord_fields]

/-- A read word is the encoding of what it decodes to, but for the WDATA that is ignored (30_encoding R90). -/
theorem encode_decode_of_read (t : TWord) (h : TWord.we t = false) :
    encode (decode t) = t &&& 0x1FF00000000#41 := by
  rw [decode, if_neg (Bool.eq_false_iff.mp h), encode_decodeRead, readWord_off_of_read t h]

/-! ### The rows of the decode map -/

/-- The encoding of every well-formed transaction matches the row of its kind (30_encoding R93). -/
theorem encode_matches_row_of_kind : ∀ i : Instr, Laws.EncodeRow.Statement i
  | .rdId => Laws.EncodeRow.rdId
  | .wrId w => Laws.EncodeRow.wrId w
  | .rdCtrl => Laws.EncodeRow.rdCtrl
  | .wrCtrl w => Laws.EncodeRow.wrCtrl w
  | .startNearest w => Laws.EncodeRow.startNearest w
  | .startBilinear w => Laws.EncodeRow.startBilinear w
  | .rdStatus => Laws.EncodeRow.rdStatus
  | .wrStatus w => Laws.EncodeRow.wrStatus w
  | .rdSrcAddr => Laws.EncodeRow.rdSrcAddr
  | .wrSrcAddr w => Laws.EncodeRow.wrSrcAddr w
  | .rdSrcSize => Laws.EncodeRow.rdSrcSize
  | .wrSrcSize w => Laws.EncodeRow.wrSrcSize w
  | .rdMaxDim => Laws.EncodeRow.rdMaxDim
  | .wrMaxDim w => Laws.EncodeRow.wrMaxDim w
  | .rdDstAddr => Laws.EncodeRow.rdDstAddr
  | .wrDstAddr w => Laws.EncodeRow.wrDstAddr w
  | .rdOutW => Laws.EncodeRow.rdOutW
  | .wrOutW w => Laws.EncodeRow.wrOutW w
  | .rdOutH => Laws.EncodeRow.rdOutH
  | .wrOutH w => Laws.EncodeRow.wrOutH w
  | .rdOutLen => Laws.EncodeRow.rdOutLen
  | .wrOutLen w => Laws.EncodeRow.wrOutLen w
  | .rdRsv off => Laws.EncodeRow.rdRsv off
  | .wrRsv off w => Laws.EncodeRow.wrRsv off w

theorem rowMatches_iff (row : String × TWord × TWord) (t : TWord) :
    rowMatches row t = true ↔ t &&& row.2.2 = row.2.1 := beq_iff_eq

/-- Every row either looks at no bit of WDATA or is a row of writes (30_encoding R93). -/
theorem row_wdata_only_of_write : ∀ row ∈ decodeMap ++ fallbackMap,
    0x1FF00000000#41 &&& row.2.2 = row.2.2 ∨ TWord.we row.2.1 = true := by decide

/-- A row that the WDATA-free form of a read word matches is matched by the word itself. -/
theorem rowMatches_of_masked_read (row : String × TWord × TWord) (hrow : row ∈ decodeMap ++ fallbackMap) (t : TWord)
    (hread : TWord.we t = false) (h : rowMatches row (t &&& 0x1FF00000000#41) = true) : rowMatches row t = true := by
  rw [rowMatches_iff, BitVec.and_assoc] at h
  rcases row_wdata_only_of_write row hrow with hmask | hwrite
  · rwa [hmask, ← rowMatches_iff] at h
  · rw [← h, we_and, hread] at hwrite
    cases hwrite

/-- Every word matches the row of the kind it decodes to (30_encoding R93). -/
theorem exists_row_of_decode (t : TWord) :
    ∃ row ∈ decodeMap ++ fallbackMap, row.1 = (decode t).mnemonic ∧ rowMatches row t = true := by
  obtain ⟨row, hrow, hname, hmatch⟩ := encode_matches_row_of_kind (decode t) (decode_wf t)
  refine ⟨row, hrow, hname, ?_⟩
  cases hwe : TWord.we t with
  | true => rwa [encode_decode_of_write t hwe] at hmatch
  | false =>
    rw [encode_decode_of_read t hwe] at hmatch
    exact rowMatches_of_masked_read row hrow t hwe hmatch

/-- Two specific rows that agree where both masks look are one row (30_encoding R93). -/
theorem decodeMap_disjoint : ∀ row ∈ decodeMap, ∀ row' ∈ decodeMap,
    row.2.1 &&& row'.2.2 = row'.2.1 &&& row.2.2 → row = row' := by decide

/-- No word matches two specific rows. -/
theorem decodeMap_row_unique (t : TWord) (row row' : String × TWord × TWord) (hrow : row ∈ decodeMap)
    (hrow' : row' ∈ decodeMap) (h : rowMatches row t = true) (h' : rowMatches row' t = true) : row = row' := by
  rw [rowMatches_iff] at h h'
  refine decodeMap_disjoint row hrow row' hrow' ?_
  rw [← h, ← h', BitVec.and_assoc, BitVec.and_assoc, BitVec.and_comm row.2.2]

/-- Every specific row names the offset of a register (30_encoding R93). -/
theorem decodeMap_row_offset : ∀ row ∈ decodeMap,
    TWord.off row.2.2 = 0xFF#8 ∧ regAt (TWord.off row.2.1) ≠ none := by decide

/-- A word that matches a specific row is of one of the ten registers. -/
theorem regAt_off_of_rowMatches (t : TWord) (row : String × TWord × TWord) (hrow : row ∈ decodeMap)
    (h : rowMatches row t = true) : regAt (TWord.off t) ≠ none := by
  obtain ⟨hmask, hreg⟩ := decodeMap_row_offset row hrow
  have hoff : TWord.off t &&& 0xFF#8 = TWord.off t := BitVec.and_allOnes
  rwa [← (rowMatches_iff row t).mp h, off_and, hmask, hoff] at hreg

/-- A word and the encoding of what it decodes to have the same OFF field. -/
theorem off_encode_decode (t : TWord) : TWord.off (encode (decode t)) = TWord.off t := by
  cases hwe : TWord.we t with
  | true => rw [encode_decode_of_write t hwe]
  | false => rw [encode_decode_of_read t hwe, ← readWord_off_of_read t hwe, readWord, off_packWord]

theorem fallbackMap_names : ∀ row ∈ fallbackMap, row.1 = "RD_RSV" ∨ row.1 = "WR_RSV" := by decide

/-- A well-formed transaction that has the name of a fallback row is of a reserved offset (30_encoding R93, R96). -/
theorem regAt_off_encode_of_fallback_name (i : Instr) (hwf : i.wf = true) (row : String × TWord × TWord)
    (hrow : row ∈ fallbackMap) (hname : row.1 = i.mnemonic) : regAt (TWord.off (encode i)) = none := by
  have hrsv := fallbackMap_names row hrow
  rw [hname] at hrsv
  cases i with
  | rdRsv off => rwa [encode, readWord, off_packWord, ← Option.isNone_iff_eq_none]
  | wrRsv off wdata => rwa [encode, writeWord, off_packWord, ← Option.isNone_iff_eq_none]
  | _ => simp [Instr.mnemonic] at hrsv

/-- A word that matches a specific row decodes to that row's kind: the row of its kind is no fallback row, and no two
specific rows match. -/
theorem mnemonic_decode_of_rowMatches (t : TWord) (row : String × TWord × TWord) (hrow : row ∈ decodeMap)
    (h : rowMatches row t = true) : (decode t).mnemonic = row.1 := by
  obtain ⟨row', hrow', hname, hmatch⟩ := exists_row_of_decode t
  rcases List.mem_append.mp hrow' with hspecific | hfallback
  · rw [← hname, decodeMap_row_unique t row row' hrow hspecific h hmatch]
  · have hnone := regAt_off_encode_of_fallback_name (decode t) (decode_wf t) row' hfallback hname
    rw [off_encode_decode] at hnone
    exact absurd hnone (regAt_off_of_rowMatches t row hrow h)

/-- A word that matches no specific row matches the fallback row of the kind it decodes to. -/
theorem fallback_row_of_no_specific (t : TWord) (h : ∀ row ∈ decodeMap, rowMatches row t = false) :
    ∃ row ∈ fallbackMap, rowMatches row t = true ∧ (decode t).mnemonic = row.1 := by
  obtain ⟨row, hrow, hname, hmatch⟩ := exists_row_of_decode t
  rcases List.mem_append.mp hrow with hspecific | hfallback
  · exact absurd hmatch (Bool.eq_false_iff.mp (h row hspecific))
  · exact ⟨row, hfallback, hmatch, hname.symm⟩

end Sys2Proof

/-! Every transaction goes on. -/

namespace Sys2Proof.Machine

/-- Every transaction ends in a next state, from every state (30_encoding R95, 60 R273). -/
theorem exec_goes_on (i : Instr) (s : State) : GoesOn (exec i s) := by
  cases i <;> exact ⟨_, rfl⟩

end Sys2Proof.Machine

/-! The statements of the encoding family: spec/30_encoding.md. -/

namespace Sys2Proof.Proofs

open Sys2Proof.Machine

/-- Settles O2, kind by kind: the decoder reads the fields of the encoded word back. Well-formed operands are needed
where the decoder looks at more than a register's offset: a CTRL write's WDATA, and a reserved offset. -/
theorem decodeOfEncodeIsTheTransaction : Obligations.DecodeOfEncodeIsTheTransaction := by
  intro i hwf
  cases i with
  | rdRsv off => rw [encode, decode_readWord, decodeRead_reserved off (Option.isNone_iff_eq_none.mp hwf)]
  | wrRsv off wdata =>
    rw [encode, decode_writeWord, decodeWrite_reserved off wdata (Option.isNone_iff_eq_none.mp hwf)]
  | wrCtrl wdata | startNearest wdata | startBilinear wdata =>
    rw [encode, decode_writeWord, decodeWrite_ctrl]
    simp only [Instr.wf, Bool.and_eq_true, Bool.not_eq_true'] at hwf
    simp only [decodeCtrlWrite, hwf, if_true, Bool.false_eq_true, if_false]
  | rdId | rdCtrl | rdStatus | rdSrcAddr | rdSrcSize | rdMaxDim | rdDstAddr | rdOutW | rdOutH | rdOutLen =>
    rw [encode, decode_readWord, decodeRead, regAt_offset]
  | wrId | wrStatus | wrSrcAddr | wrSrcSize | wrMaxDim | wrDstAddr | wrOutW | wrOutH | wrOutLen =>
    rw [encode, decode_writeWord, decodeWrite, regAt_offset]

/-- Settles O3: the decoder gives well-formed transactions only, and the encoder undoes it read by read, write by write. -/
theorem encodeOfDecodeIsTheWord : Obligations.EncodeOfDecodeIsTheWord := by
  intro t
  refine ⟨decode_wf t, ?_⟩
  split
  · next hwrite => exact encode_decode_of_write t hwrite
  · next hread => exact encode_decode_of_read t (Bool.eq_false_iff.mpr hread)

/-- Settles O4: every word matches the row of its kind, and no two specific rows match. -/
theorem everyWordDecodesByTheDecodeMap : Obligations.EveryWordDecodesByTheDecodeMap := fun t =>
  ⟨mnemonic_decode_of_rowMatches t, fun row hrow row' hrow' => decodeMap_row_unique t row row' hrow hrow',
    fallback_row_of_no_specific t⟩

/-- Settles O17: the step with a transaction next runs it, and no transaction stops, sets ERR or touches the events. -/
theorem noWordStopsTheBlockOrSetsErr : Obligations.NoWordStopsTheBlockOrSetsErr := by
  refine ⟨exec_goes_on, fun s t es h => ?_⟩
  obtain ⟨u, hu⟩ := exec_goes_on (decode t) { s with events := es }
  obtain ⟨-, -, hevents, -⟩ := exec_frame _ _ u hu
  obtain ⟨-, herr⟩ := exec_sets_no_flag _ _ u hu
  exact ⟨u, (step_of_transaction s t es h).trans hu, hevents, herr⟩

/-- Settles O1: each word is closed, and the decoder evaluates on it. -/
theorem writtenOutWordsDecode : Obligations.WrittenOutWordsDecode := by
  unfold Obligations.WrittenOutWordsDecode
  decide

end Sys2Proof.Proofs

/-! The host commands one by one (spec/40_host_commands.md): what a read of a register answers, which writes are ignored,
the numbers that the words CTRL, STATUS and SRC_SIZE stand for, and the job start. -/

namespace Sys2Proof.Machine

/-! ### Reads and ignored writes -/

/-- A word of any fields decodes by its WE bit (30_encoding R90, R93). -/
theorem decode_packWord (we : Bool) (off : Byte) (wdata : Word) :
    decode (packWord we off wdata) = if we then decodeWrite off wdata else decodeRead off := by
  rw [decode, we_packWord, off_packWord, wdata_packWord]

/-- A read of a register answers with the register's word and changes nothing else (30_encoding R92). -/
theorem exec_read (r : Reg) (s : State) :
    exec (decodeRead (Reg.offset r)) s = .next (respond (readReg r s) s) := by
  cases r <;> rfl

/-- The registers that the host cannot write: ID and the results (40 R121, R139, R141, R143). -/
def readOnlyRegs : List Reg := [.id, .outW, .outH, .outLen]

/-- A write of a read-only register changes no state. -/
theorem exec_write_readOnly (wdata : Word) (s : State) :
    ∀ r ∈ readOnlyRegs, exec (decodeWrite (Reg.offset r) wdata) s = .next s := by
  simp only [readOnlyRegs, List.forall_mem_cons]
  exact ⟨rfl, rfl, rfl, rfl, nofun⟩

/-! ### The register words as numbers -/

/-- A concatenation as a number: the high part counts units of the low part's range. -/
theorem toNat_append_eq_mul_add {m n : Nat} (x : BitVec m) (y : BitVec n) :
    (x ++ y).toNat = x.toNat * 2 ^ n + y.toNat := by
  rw [BitVec.toNat_append, ← Nat.shiftLeft_add_eq_or_of_lt y.isLt, Nat.shiftLeft_eq]

/-- CTRL reads IRQ_EN in bit 2 and FILTER in bit 1 (40 R122). -/
theorem ctrlWord_toNat (s : State) : (ctrlWord s).toNat = 4 * s.irqEn.toNat + 2 * s.filter.toNat := by
  simp only [ctrlWord, toNat_append_eq_mul_add, BitVec.toNat_ofBool, BitVec.toNat_ofNat]
  omega

/-- BUSY as a number is 1 exactly in PHASE BUSY (10_state R29). -/
theorem busy_toNat (s : State) : s.busy.toNat = if s.phase = .busy then 1 else 0 := by
  cases h : s.phase <;> simp [State.busy, h]

/-- STATUS reads ERRCODE from bit 4 up, ERR in bit 2, DONE in bit 1 and BUSY in bit 0 (40 R128). -/
theorem statusWord_toNat (s : State) :
    (statusWord s).toNat =
      16 * s.errcode.toNat + 4 * s.err.toNat + 2 * s.done.toNat + if s.phase = .busy then 1 else 0 := by
  rw [← busy_toNat]
  simp only [statusWord, toNat_append_eq_mul_add, BitVec.toNat_ofBool, BitVec.toNat_ofNat]
  omega

/-- SRC_SIZE reads SRC_H above SRC_W (40 R132). -/
theorem srcSize_toNat (s : State) : (readReg .srcSize s).toNat = 65536 * s.srcH.toNat + s.srcW.toNat := by
  rw [readReg, toNat_append_eq_mul_add]
  omega

/-- MAX_DIM reads M below zeros (40 R134). -/
theorem maxDim_toNat (s : State) : (readReg .maxDim s).toNat = s.maxDim.toNat := by
  rw [readReg, toNat_append_eq_mul_add, BitVec.toNat_zero, Nat.zero_mul, Nat.zero_add]

/-- The low half of WDATA: SRC_W, and M (40 R133, R135). -/
theorem wdata_low_toNat (wdata : Word) : (wdata.extractLsb' 0 16).toNat = wdata.toNat % 65536 := by
  rw [BitVec.extractLsb'_toNat, Nat.shiftRight_zero]

/-- The high half of WDATA: SRC_H (40 R133). -/
theorem wdataSrcH_toNat (wdata : Word) : (wdataSrcH wdata).toNat = wdata.toNat / 65536 := by
  rw [wdataSrcH, BitVec.extractLsb'_toNat, Nat.shiftRight_eq_div_pow]
  omega

/-! ### The acknowledge -/

/-- Writing 1 clears a W1C bit (10_state R30, R31). -/
@[simp] theorem w1c_true (bit : Bool) : w1c bit true = false := Bool.and_false bit

/-- Writing 0 leaves a W1C bit (10_state R30, R31). -/
@[simp] theorem w1c_false (bit : Bool) : w1c bit false = bit := Bool.and_true bit

/-- The two acknowledge bits at their places in STATUS, ERR over DONE. -/
theorem getLsbD_flagBits (clearErr clearDone : Bool) (i : Nat) :
    (0#24 ++ 0#4 ++ 0#1 ++ BitVec.ofBool clearErr ++ BitVec.ofBool clearDone ++ 0#1).getLsbD i =
      if i = 1 then clearDone else if i = 2 then clearErr else false := by
  simp only [BitVec.getLsbD_append, BitVec.getLsbD_zero, BitVec.getLsbD_ofBool, ite_self]
  match i with
  | 0 | 1 | 2 | i + 3 => simp

/-- Of WDATA a STATUS write takes bit 1 and bit 2 (40 R129); the mask is the word with both of them set. -/
theorem wdata_and_flags (wdata : Word) :
    wdata &&& 0x00000006#32 =
      0#24 ++ 0#4 ++ 0#1 ++ BitVec.ofBool (wdataClearErr wdata) ++ BitVec.ofBool (wdataClearDone wdata) ++ 0#1 := by
  have hmask (i : Nat) : (0x00000006#32).getLsbD i = if i = 1 then true else if i = 2 then true else false :=
    getLsbD_flagBits true true i
  apply BitVec.eq_of_getLsbD_eq
  intro i hi
  rw [BitVec.getLsbD_and, hmask]
  refine Eq.trans ?_ (getLsbD_flagBits (wdataClearErr wdata) (wdataClearDone wdata) i).symm
  split_ifs with hdone herr
  · rw [hdone, Bool.and_true, wdataClearDone]
  · rw [herr, Bool.and_true, wdataClearErr]
  · exact Bool.and_false _

/-- Masking the STATUS word by the acknowledge bits is W1C of ERR and of DONE, field by field. -/
theorem status_and_not_flagBits (code : Nibble) (err done busy clearErr clearDone : Bool) :
    (0#24 ++ code ++ 0#1 ++ BitVec.ofBool err ++ BitVec.ofBool done ++ BitVec.ofBool busy) &&&
        ~~~(0#24 ++ 0#4 ++ 0#1 ++ BitVec.ofBool clearErr ++ BitVec.ofBool clearDone ++ 0#1) =
      0#24 ++ code ++ 0#1 ++ BitVec.ofBool (w1c err clearErr) ++ BitVec.ofBool (w1c done clearDone) ++
        BitVec.ofBool busy := by
  simp only [BitVec.not_append, BitVec.and_append, BitVec.not_ofBool, BitVec.ofBool_and_ofBool, BitVec.not_zero,
    BitVec.and_allOnes, w1c]

/-- After the acknowledge STATUS reads as before with the written flags masked off (40 R129). -/
theorem statusWord_acknowledge (s : State) (wdata : Word) :
    statusWord (acknowledge (wdataClearDone wdata) (wdataClearErr wdata) s) =
      statusWord s &&& ~~~(wdata &&& 0x00000006#32) := by
  rw [wdata_and_flags]
  exact (status_and_not_flagBits s.errcode s.err s.done s.busy (wdataClearErr wdata) (wdataClearDone wdata)).symm

/-! ### The job start -/

/-- A START of either kind is the CTRL field update and then the job start (40 R126, R127). -/
theorem exec_start {i : Instr} {wdata : Word} (s : State) (hi : i = .startNearest wdata ∨ i = .startBilinear wdata) :
    exec i s = .next (startJob (ctrlUpdate wdata s)) := by
  rcases hi with rfl | rfl <;> rfl

/-- A START in IDLE latches the FILTER that it writes (40 R125). -/
theorem exec_start_filter {i : Instr} {wdata : Word} {s : State} {filter : Bool}
    (hi : i = .startNearest wdata ∨ i = .startBilinear wdata) (hidle : s.phase = .idle)
    (hfilter : wdata.getLsbD 1 = filter) :
    ∃ t, exec i s = .next t ∧ t.phase = .busy ∧ t.filter = filter ∧ t.job.filter = filter := by
  refine ⟨_, exec_start s hi, ?_⟩
  rw [startJob_idle (ctrlUpdate wdata s) hidle]
  exact ⟨rfl, hfilter, hfilter⟩

/-- FILTER 0 is nearest (41_resizer R169). -/
theorem resample_of_filter_false {j : Job} (hfilter : j.filter = false) : resample j = resampleNearest j := by
  funext m w h x y
  rw [resample, if_neg (Bool.eq_false_iff.mp hfilter)]

/-- FILTER 1 is bilinear (41_resizer R169). -/
theorem resample_of_filter_true {j : Job} (hfilter : j.filter = true) : resample j = resampleBilinear j := by
  funext m w h x y
  rw [resample, if_pos hfilter]

end Sys2Proof.Machine

/-! The statements of the host command family: spec/40_host_commands.md. -/

namespace Sys2Proof.Proofs

open Sys2Proof.Machine

/-- Settles O9: both kinds are one field update and one job start, which latches in IDLE and does nothing in BUSY. -/
theorem startLatchesInIdleAndIsIgnoredInBusy : Obligations.StartLatchesInIdleAndIsIgnoredInBusy := by
  intro s wdata i hi
  refine ⟨fun hidle => ?_, fun hbusy => ?_⟩
  · exact ⟨_, exec_start s hi, irq_startJob (ctrlUpdate wdata s) (.inl hidle), startJob_idle (ctrlUpdate wdata s) hidle⟩
  · rw [exec_start s hi, startJob_busy (ctrlUpdate wdata s) hbusy]
    rfl

/-- Settles O5: no register is at such an offset, so the fallback rows are left. -/
theorem reservedOffsetsReadZeroAndIgnoreWrites : Obligations.ReservedOffsetsReadZeroAndIgnoreWrites := by
  intro off wdata s hoff
  have hnone : regAt off = none := (regAt_none_iff off).mpr hoff
  refine ⟨?_, ?_, rfl, rfl⟩
  · exact (decode_packWord false off wdata).trans (decodeRead_reserved off hnone)
  · exact (decode_packWord true off wdata).trans (decodeWrite_reserved off wdata hnone)

/-- Settles O6: ID is a register whose word is fixed, and read-only. -/
theorem identityIsHardwired : Obligations.IdentityIsHardwired := fun s wdata =>
  ⟨exec_read .id s, exec_write_readOnly wdata s .id (by decide)⟩

/-- Settles O7. -/
theorem ctrlReadShowsIrqEnableAndFilter : Obligations.CtrlReadShowsIrqEnableAndFilter := fun s =>
  ⟨_, exec_read .ctrl s, rfl, ctrlWord_toNat s⟩

/-- Settles O8: the meaning is the field update itself. -/
theorem ctrlWriteSetsFilterAndIrqEnable : Obligations.CtrlWriteSetsFilterAndIrqEnable := fun _ _ => rfl

/-- Settles O11. -/
theorem statusReadAssemblesTheFlags : Obligations.StatusReadAssemblesTheFlags := fun s =>
  ⟨_, exec_read .status s, rfl, statusWord_toNat s⟩

/-- Settles O12: the W1C rule of each flag, and the same rule on the assembled word. -/
theorem statusWriteClearsTheWrittenOnes : Obligations.StatusWriteClearsTheWrittenOnes := by
  intro s wdata
  refine ⟨acknowledge (wdataClearDone wdata) (wdataClearErr wdata) s, rfl, rfl, ?_, ?_, ?_, ?_,
    statusWord_acknowledge s wdata⟩
  · intro hdone; rw [acknowledge_done, wdataClearDone, hdone, w1c_true]
  · intro hdone; rw [acknowledge_done, wdataClearDone, hdone, w1c_false]
  · intro herr; rw [acknowledge_err, wdataClearErr, herr, w1c_true]
  · intro herr; rw [acknowledge_err, wdataClearErr, herr, w1c_false]

/-- Settles O13: each register's read, and its word as a number. -/
theorem configurationReadsReturnTheLiveRegister : Obligations.ConfigurationReadsReturnTheLiveRegister := fun s =>
  ⟨exec_read .srcAddr s, ⟨_, exec_read .srcSize s, rfl, srcSize_toNat s⟩,
    ⟨_, exec_read .maxDim s, rfl, maxDim_toNat s⟩, ⟨_, exec_read .maxDim State.reset, rfl⟩, exec_read .dstAddr s⟩

/-- Settles O14: each write is its register's update, with the halves of WDATA as numbers. -/
theorem configurationWritesSetTheirFields : Obligations.ConfigurationWritesSetTheirFields := fun _ wdata =>
  ⟨rfl, ⟨_, rfl, rfl, wdata_low_toNat wdata, wdataSrcH_toNat wdata⟩, ⟨_, rfl, rfl, wdata_low_toNat wdata⟩, rfl⟩

/-- Settles O15. -/
theorem resultReadsReturnTheRegister : Obligations.ResultReadsReturnTheRegister := fun s =>
  ⟨exec_read .outW s, exec_read .outH s, exec_read .outLen s⟩

/-- Settles O16: the three result registers are read-only. -/
theorem resultWritesAreIgnored : Obligations.ResultWritesAreIgnored := fun s wdata =>
  ⟨exec_write_readOnly wdata s .outW (by decide), exec_write_readOnly wdata s .outH (by decide),
    exec_write_readOnly wdata s .outLen (by decide)⟩

/-- Settles O54: well-formed operands fix WDATA[1], the START latches it, and the filter bit picks the resampling. -/
theorem startKindSelectsTheFilter : Obligations.StartKindSelectsTheFilter := by
  refine ⟨fun s wdata hidle hwf => ?_, fun s wdata hidle hwf => ?_, fun _ _ => rfl⟩
  all_goals simp only [Instr.wf, Bool.and_eq_true, Bool.not_eq_true'] at hwf
  · obtain ⟨t, hexec, hphase, hfilter, hjob⟩ := exec_start_filter (.inl rfl) hidle hwf.2
    exact ⟨t, hexec, hphase, hfilter, hjob, fun m w h x y => by rw [resample_of_filter_false hjob]⟩
  · obtain ⟨t, hexec, hphase, hfilter, hjob⟩ := exec_start_filter (.inr rfl) hidle hwf.2
    exact ⟨t, hexec, hphase, hfilter, hjob, fun m w h x y => by rw [resample_of_filter_true hjob]⟩

end Sys2Proof.Proofs

/-! The resizer (spec/41_resizer.md): round-half-up, the two steps of the target dimensions, and the two filters along one
axis and on a channel. -/

namespace Sys2Proof.Machine

/-! ### Round-half-up -/

/-- `k ≤ rhu(p, q)` where p/q is at least k (00_scope R7). -/
theorem le_rhu {p q k : Nat} (hq : 0 < q) (h : k * q ≤ p) : k ≤ rhu p q := by
  rw [rhu, Nat.le_div_iff_mul_le (by omega), Nat.mul_left_comm]
  omega

/-- An exact quotient is not changed by rounding (00_scope R7). -/
theorem rhu_mul_self {q : Nat} (k : Nat) (hq : 0 < q) : rhu (k * q) q = k :=
  le_antisymm (rhu_le hq le_rfl) (le_rhu hq le_rfl)

/-- A quotient rounds to 0 exactly below one half (00_scope R7). -/
theorem rhu_eq_zero_iff {p q : Nat} (hq : 0 < q) : rhu p q = 0 ↔ 2 * p < q := by
  rw [rhu, Nat.div_eq_zero_iff]
  omega

/-- Rounding adds at most one half (00_scope R7). -/
theorem two_mul_rhu_mul_le (p q : Nat) : 2 * (rhu p q * q) ≤ 2 * p + q := by
  rw [Nat.mul_left_comm]
  exact Nat.div_mul_le_self _ _

/-! ### Step 1, scale-down (41 R161) -/

theorem scaleDown_of_le {ow oh m : Nat} (h : max ow oh ≤ m) : scaleDown ow oh m = (ow, oh) := if_neg (by omega)

theorem scaleDown_of_wide {ow oh m : Nat} (hm : m < ow) (h : oh ≤ ow) : scaleDown ow oh m = (m, rhu (oh * m) ow) := by
  rw [scaleDown, if_pos (by omega), if_pos h]

theorem scaleDown_of_tall {ow oh m : Nat} (hm : m < oh) (h : ow < oh) : scaleDown ow oh m = (rhu (ow * m) oh, m) := by
  rw [scaleDown, if_pos (by omega), if_neg (by omega)]

/-- The three sources of step 1: within the bound, wide or square, and tall. -/
theorem scaleDown_shapes (ow oh m : Nat) : max ow oh ≤ m ∨ (m < ow ∧ oh ≤ ow) ∨ (m < oh ∧ ow < oh) := by omega

/-- The width of step 1 is 0 only for M = 0 or a tall source scaled below one half (41 R167). -/
theorem scaleDown_width_eq_zero_iff {ow oh m : Nat} (hw : 0 < ow) (hh : 0 < oh) :
    (scaleDown ow oh m).1 = 0 ↔ m = 0 ∨ (oh > ow ∧ oh > m ∧ 2 * ow * m < oh) := by
  rcases scaleDown_shapes ow oh m with hle | ⟨hm, hwide⟩ | ⟨hm, htall⟩
  · rw [scaleDown_of_le hle]
    omega
  · rw [scaleDown_of_wide hm hwide]
    omega
  · rw [scaleDown_of_tall hm htall, rhu_eq_zero_iff hh, Nat.mul_assoc]
    constructor
    · exact fun h => .inr ⟨htall, hm, h⟩
    · rintro (rfl | ⟨-, -, h⟩)
      · exact hh
      · exact h

/-- The height of step 1 is 0 only for M = 0 or a wide source scaled below one half (41 R167). -/
theorem scaleDown_height_eq_zero_iff {ow oh m : Nat} (hw : 0 < ow) (hh : 0 < oh) :
    (scaleDown ow oh m).2 = 0 ↔ m = 0 ∨ (ow ≥ oh ∧ ow > m ∧ 2 * oh * m < ow) := by
  rcases scaleDown_shapes ow oh m with hle | ⟨hm, hwide⟩ | ⟨hm, htall⟩
  · rw [scaleDown_of_le hle]
    omega
  · rw [scaleDown_of_wide hm hwide, rhu_eq_zero_iff hw, Nat.mul_assoc]
    constructor
    · exact fun h => .inr ⟨hwide, hm, h⟩
    · rintro (rfl | ⟨-, -, h⟩)
      · exact hw
      · exact h
  · rw [scaleDown_of_tall hm htall]
    omega

/-- The height of step 1 keeps the bound (41 R161). -/
theorem scaleDown_height_le_bound {ow oh m : Nat} (hw : 0 < ow) : (scaleDown ow oh m).2 ≤ m := by
  rcases scaleDown_shapes ow oh m with hle | ⟨hm, hwide⟩ | ⟨hm, htall⟩
  · rw [scaleDown_of_le hle]
    omega
  · rw [scaleDown_of_wide hm hwide]
    exact rhu_le hw (by rw [Nat.mul_comm m]; exact Nat.mul_le_mul_right m hwide)
  · rw [scaleDown_of_tall hm htall]

/-- One column fewer than the width of step 1 is narrow enough that the height at the original ratio keeps the bound: the
rounding of step 1 added at most half a column (41 R162, R166). -/
theorem oh_mul_pred_width_le {ow oh m : Nat} :
    oh * ((scaleDown ow oh m).1 - 1) ≤ m * ow := by
  rcases scaleDown_shapes ow oh m with hle | ⟨hm, hwide⟩ | ⟨hm, htall⟩
  · rw [scaleDown_of_le hle]
    exact Nat.mul_le_mul (by omega) (Nat.sub_le ow 1)
  · rw [scaleDown_of_wide hm hwide, Nat.mul_comm m]
    exact Nat.mul_le_mul hwide (Nat.sub_le m 1)
  · rw [scaleDown_of_tall hm htall, Nat.mul_sub_one, Nat.mul_comm oh, Nat.mul_comm m]
    have hround := two_mul_rhu_mul_le (ow * m) oh
    dsimp only
    omega

/-! ### Step 2, even-width correction (41 R162) -/

theorem targetDims_of_even {ow oh m : Nat} (h : (scaleDown ow oh m).1 % 2 = 0) :
    targetDims ow oh m = scaleDown ow oh m := if_neg (by omega)

theorem targetDims_of_one {ow oh m : Nat} (h : (scaleDown ow oh m).1 = 1) :
    targetDims ow oh m = (2, rhu (oh * 2) ow) := by
  simp [targetDims, evenWidth, h]

theorem targetDims_of_odd {ow oh m : Nat} (h : (scaleDown ow oh m).1 % 2 = 1) (hone : 1 < (scaleDown ow oh m).1) :
    targetDims ow oh m = ((scaleDown ow oh m).1 - 1, rhu (oh * ((scaleDown ow oh m).1 - 1)) ow) := by
  simp [targetDims, evenWidth, h, hone]

/-- The three widths of step 2: even, 1, and odd above 1. -/
theorem width_parities (w : Nat) : w % 2 = 0 ∨ w = 1 ∨ (w % 2 = 1 ∧ 1 < w) := by omega

/-- Where step 2 acts, the height is taken at the original ratio from the corrected width (41 R162 b). -/
theorem targetDims_height_of_odd {ow oh m : Nat} (h : (scaleDown ow oh m).1 % 2 = 1) :
    (targetDims ow oh m).2 = rhu (oh * (targetDims ow oh m).1) ow := by
  rw [targetDims, evenWidth, if_pos h]

/-- The width stays 0 exactly where step 1 made it 0 (41 R162 a). -/
theorem targetDims_width_eq_zero_iff (ow oh m : Nat) : (targetDims ow oh m).1 = 0 ↔ (scaleDown ow oh m).1 = 0 := by
  rcases width_parities (scaleDown ow oh m).1 with heven | hone | ⟨hodd, hgt⟩
  · rw [targetDims_of_even heven]
  · simp [targetDims_of_one hone, hone]
  · rw [targetDims_of_odd hodd hgt]
    omega

/-- The height is 0 where step 1 made it 0 and step 2 did not act, or where step 2 rounds it to 0 (41 R167). -/
theorem targetDims_height_eq_zero_iff {ow oh m : Nat} (hw : 0 < ow) :
    (targetDims ow oh m).2 = 0 ↔
      ((scaleDown ow oh m).1 % 2 = 0 ∧ (scaleDown ow oh m).2 = 0) ∨
      ((scaleDown ow oh m).1 % 2 = 1 ∧ 2 * (oh * (targetDims ow oh m).1) < ow) := by
  rcases Nat.mod_two_eq_zero_or_one (scaleDown ow oh m).1 with heven | hodd
  · simp [targetDims_of_even heven, heven]
  · rw [targetDims_height_of_odd hodd, rhu_eq_zero_iff hw]
    simp [hodd]

/-- A source one column wide, not scaled to nothing, becomes two columns of twice the height (41 R166). -/
theorem targetDims_of_one_column {oh m : Nat} (hh : 0 < oh) (hne : (targetDims 1 oh m).1 ≠ 0) :
    targetDims 1 oh m = (2, 2 * oh) := by
  have hle := (scaleDown_le 1 oh m Nat.one_pos hh).1
  have hone : (scaleDown 1 oh m).1 = 1 := by
    rw [Ne, targetDims_width_eq_zero_iff] at hne
    omega
  rw [targetDims_of_one hone, ← Nat.mul_one (oh * 2), rhu_mul_self _ Nat.one_pos, Nat.mul_comm]

/-- No side of a source of two columns or more grows (41 R166). -/
theorem targetDims_le_source {ow oh m : Nat} (hw : 2 ≤ ow) (hh : 0 < oh) :
    (targetDims ow oh m).1 ≤ ow ∧ (targetDims ow oh m).2 ≤ oh := by
  have hwidth : (targetDims ow oh m).1 ≤ ow := by
    have hmax := (targetDims_le ow oh m (by omega) hh).2.1
    omega
  refine ⟨hwidth, ?_⟩
  rcases Nat.mod_two_eq_zero_or_one (scaleDown ow oh m).1 with heven | hodd
  · rw [targetDims_of_even heven]
    exact (scaleDown_le ow oh m (by omega) hh).2
  · rw [targetDims_height_of_odd hodd]
    exact rhu_le (by omega) (Nat.mul_le_mul_left oh hwidth)

/-- Only a width of 1 raised to 2 takes the height above M (41 R166). -/
theorem targetDims_height_le_bound {ow oh m : Nat} (hw : 0 < ow) (hone : (scaleDown ow oh m).1 ≠ 1) :
    (targetDims ow oh m).2 ≤ m := by
  rcases width_parities (scaleDown ow oh m).1 with heven | hone' | ⟨hodd, hgt⟩
  · rw [targetDims_of_even heven]
    exact scaleDown_height_le_bound hw
  · exact absurd hone' hone
  · rw [targetDims_of_odd hodd hgt]
    exact rhu_le hw oh_mul_pred_width_le

/-- An even width loses nothing in `(W * H) div 2` (41 R166). -/
theorem two_mul_packedLen {d : Nat × Nat} (h : d.1 % 2 = 0) : 2 * packedLen d = d.1 * d.2 :=
  Nat.mul_div_cancel' ((Nat.dvd_of_mod_eq_zero h).mul_right d.2)

/-- The most pixels a target holds, for 16-bit sides (41 R166). -/
theorem targetDims_area_le {ow oh m : Nat} (hw : 0 < ow) (hw' : ow ≤ 65535) (hh : 0 < oh) (hh' : oh ≤ 65535)
    (hne : (targetDims ow oh m).1 ≠ 0) : (targetDims ow oh m).1 * (targetDims ow oh m).2 ≤ 65534 * 65535 := by
  rcases Nat.eq_or_lt_of_le hw with rfl | hw2
  · rw [targetDims_of_one_column hh hne]
    omega
  · obtain ⟨hwidth, hheight⟩ := targetDims_le_source (m := m) hw2 hh
    have heven := (targetDims_le ow oh m hw hh).1
    exact Nat.mul_le_mul (by omega) (by omega)

/-- A source within the bound and of even width is not changed (41 R168). -/
theorem targetDims_unscaled {ow oh m : Nat} (hle : max ow oh ≤ m) (heven : ow % 2 = 0) :
    targetDims ow oh m = (ow, oh) := by
  rw [targetDims_of_even (by rwa [scaleDown_of_le hle]), scaleDown_of_le hle]

/-! ### Nearest along one axis (41 R170) -/

/-- The floor that nearest takes, as its two bounds (41 R170). -/
theorem nearestIndex_bounds (o : Nat) {n : Nat} (x : Nat) (hn : 0 < n) :
    nearestIndex o n x * (2 * n) ≤ (2 * x + 1) * o ∧ (2 * x + 1) * o < (nearestIndex o n x + 1) * (2 * n) :=
  ⟨Nat.div_mul_le_self _ _, (Nat.div_lt_iff_lt_mul (by omega)).mp (Nat.lt_succ_self _)⟩

/-- An unscaled axis is sampled index by index (41 R170 b). -/
theorem nearestIndex_unscaled {n : Nat} (x : Nat) (hn : 0 < n) : nearestIndex n n x = x := by
  rw [nearestIndex, Nat.mul_div_mul_right _ _ hn]
  omega

/-! ### Bilinear along one axis (41 R172, R173) -/

/-- The position is the clamped centre itself: the clamp leaves nothing below 0 (41 R172). -/
theorem bilinearPos_eq_clamp {o : Nat} (n x : Nat) (ho : 0 < o) :
    (bilinearPos o n x : Int) = clamp ((2 * x + 1) * o - n) 0 (2 * n * (o - 1)) := by
  have hlast : (0 : Int) ≤ 2 * n * (o - 1) := mul_nonneg (by omega) (by omega)
  exact Int.toNat_of_nonneg (le_min (le_max_right _ _) hlast)

/-- Low corner and weight are quotient and remainder of the position (41 R172). -/
theorem bilinearLow_mul_add_weight (o n x : Nat) :
    bilinearLow o n x * (2 * n) + bilinearWeight o n x = bilinearPos o n x := Nat.div_add_mod' _ _

/-- The position is at most that of the last source pixel (41 R172). -/
theorem bilinearPos_le {o : Nat} (n x : Nat) (ho : 0 < o) : bilinearPos o n x ≤ (o - 1) * (2 * n) := by
  have hclamp := bilinearPos_eq_clamp n x ho
  have hle : (bilinearPos o n x : Int) ≤ 2 * n * (o - 1) := hclamp ▸ min_le_right _ _
  zify [ho]
  linarith

theorem bilinearWeight_lt (o : Nat) {n : Nat} (x : Nat) (hn : 0 < n) : bilinearWeight o n x < 2 * n :=
  Nat.mod_lt _ (by omega)

/-- At the last source pixel nothing is left for a further one (41 R173 b). -/
theorem bilinearWeight_eq_zero_of_last {o : Nat} (n x : Nat) (ho : 0 < o) (hlast : bilinearLow o n x = o - 1) :
    bilinearWeight o n x = 0 := by
  have hpos := bilinearPos_le n x ho
  rw [← bilinearLow_mul_add_weight, hlast] at hpos
  omega

/-- The two corners are one pixel only at the last (41 R173 b). -/
theorem bilinearLow_eq_last {o : Nat} (n x : Nat) (ho : 0 < o) (h : bilinearHigh o n x = bilinearLow o n x) :
    bilinearLow o n x = o - 1 := by
  rw [bilinearHigh] at h
  have hlt := bilinearLow_lt n x ho
  omega

/-- The centre of an unscaled output pixel is its source pixel's (41 R173 c). -/
theorem bilinearPos_unscaled {n x : Nat} (hx : x < n) : bilinearPos n n x = x * (2 * n) := by
  have hcentre : ((2 * x + 1) * n - n : Int) = (x * (2 * n) : Nat) := by push_cast; ring
  have hlast : (2 * n * (n - 1) : Int) = ((n - 1) * (2 * n) : Nat) := by push_cast [Nat.one_le_of_lt hx]; ring
  have hle : x * (2 * n) ≤ (n - 1) * (2 * n) := Nat.mul_le_mul_right _ (by omega)
  rw [bilinearPos, clamp, hcentre, hlast]
  omega

theorem bilinearLow_unscaled {n x : Nat} (hx : x < n) : bilinearLow n n x = x := by
  rw [bilinearLow, bilinearPos_unscaled hx, Nat.mul_div_cancel _ (by omega)]

theorem bilinearWeight_unscaled {n x : Nat} (hx : x < n) : bilinearWeight n n x = 0 := by
  rw [bilinearWeight, bilinearPos_unscaled hx, Nat.mul_mod_left]

/-! ### Mixing the four corners (41 R172, R173 d) -/

/-- The four corner weights add up to 4WH (41 R173 d). -/
theorem bilinearSum_const {w h ax ay : Nat} (k : Nat) (hax : ax ≤ 2 * w) (hay : ay ≤ 2 * h) :
    bilinearSum w h ax ay k k k k = k * (4 * w * h) := by
  obtain ⟨dx, hdx⟩ := Nat.exists_eq_add_of_le hax
  obtain ⟨dy, hby⟩ := Nat.exists_eq_add_of_le hay
  have harea : 4 * w * h = (ax + dx) * (ay + dy) := by rw [← hdx, ← hby]; ring
  rw [bilinearSum, harea, hdx, hby, Nat.add_sub_cancel_left, Nat.add_sub_cancel_left]
  ring

/-- The weighted sum rises with each corner (41 R172). -/
theorem bilinearSum_mono (w h ax ay : Nat) {p00 p10 p01 p11 q00 q10 q01 q11 : Nat} (h00 : p00 ≤ q00) (h10 : p10 ≤ q10)
    (h01 : p01 ≤ q01) (h11 : p11 ≤ q11) : bilinearSum w h ax ay p00 p10 p01 p11 ≤ bilinearSum w h ax ay q00 q10 q01 q11 := by
  unfold bilinearSum
  gcongr

/-- Bounds that the four corners keep, the weighted sum keeps 4WH times (41 R173 d). -/
theorem bilinearSum_bounds {w h ax ay lo hi : Nat} {p00 p10 p01 p11 : Byte} (hax : ax ≤ 2 * w) (hay : ay ≤ 2 * h)
    (hbounds : ∀ p ∈ [p00, p10, p01, p11], lo ≤ p.toNat ∧ p.toNat ≤ hi) :
    lo * (4 * w * h) ≤ bilinearSum w h ax ay p00.toNat p10.toNat p01.toNat p11.toNat ∧
      bilinearSum w h ax ay p00.toNat p10.toNat p01.toNat p11.toNat ≤ hi * (4 * w * h) := by
  simp only [List.forall_mem_cons, List.not_mem_nil, false_implies, implies_true, and_true] at hbounds
  obtain ⟨⟨hlo00, hhi00⟩, ⟨hlo10, hhi10⟩, ⟨hlo01, hhi01⟩, ⟨hlo11, hhi11⟩⟩ := hbounds
  rw [← bilinearSum_const lo hax hay, ← bilinearSum_const hi hax hay]
  exact ⟨bilinearSum_mono w h ax ay hlo00 hlo10 hlo01 hlo11, bilinearSum_mono w h ax ay hhi00 hhi10 hhi01 hhi11⟩

/-- The sum of four bytes is at most 255 times the weights (41 R173 d). -/
theorem bilinearSum_le {w h ax ay : Nat} (p00 p10 p01 p11 : Byte) (hax : ax ≤ 2 * w) (hay : ay ≤ 2 * h) :
    bilinearSum w h ax ay p00.toNat p10.toNat p01.toNat p11.toNat ≤ 255 * (4 * w * h) :=
  (bilinearSum_bounds (lo := 0) hax hay fun p _ => ⟨Nat.zero_le _, Nat.le_of_lt_succ p.isLt⟩).2

section
variable {w h ax ay : Nat} (hw : 0 < w) (hh : 0 < h) (hax : ax ≤ 2 * w) (hay : ay ≤ 2 * h)
include hw hh hax hay

/-- The rounded quotient is a byte value, so nothing is truncated (41 R173 d). -/
theorem mixChannel_toNat (p00 p10 p01 p11 : Byte) :
    (mixChannel w h ax ay p00 p10 p01 p11).toNat =
      rhu (bilinearSum w h ax ay p00.toNat p10.toNat p01.toNat p11.toNat) (4 * w * h) := by
  have hbyte : rhu (bilinearSum w h ax ay p00.toNat p10.toNat p01.toNat p11.toNat) (4 * w * h) ≤ 255 :=
    rhu_le (by positivity) (bilinearSum_le p00 p10 p01 p11 hax hay)
  rw [mixChannel, BitVec.toNat_ofNat, Nat.mod_eq_of_lt (by omega)]

/-- A channel stays between bounds that its corners keep (41 R173 d). -/
theorem mixChannel_bounds {lo hi : Nat} {p00 p10 p01 p11 : Byte}
    (hbounds : ∀ p ∈ [p00, p10, p01, p11], lo ≤ p.toNat ∧ p.toNat ≤ hi) :
    lo ≤ (mixChannel w h ax ay p00 p10 p01 p11).toNat ∧ (mixChannel w h ax ay p00 p10 p01 p11).toNat ≤ hi := by
  obtain ⟨hlo, hhi⟩ := bilinearSum_bounds hax hay hbounds
  rw [mixChannel_toNat hw hh hax hay]
  exact ⟨le_rhu (by positivity) hlo, rhu_le (by positivity) hhi⟩

/-- Four equal corners give their own value (41 R173 d). -/
theorem mixChannel_self (p : Byte) : mixChannel w h ax ay p p p p = p := by
  obtain ⟨hlo, hhi⟩ := mixChannel_bounds hw hh hax hay (p00 := p) (p10 := p) (p01 := p) (p11 := p)
    (lo := p.toNat) (hi := p.toNat) (by simp)
  exact BitVec.eq_of_toNat_eq (le_antisymm hhi hlo)

theorem mixPixel_self (p : Pixel) : mixPixel w h ax ay p p p p = p := by
  simp only [mixPixel, mixChannel_self hw hh hax hay]

end

/-- Weights of 0 leave the low corners alone in the sum (41 R173 c). -/
theorem bilinearSum_of_weights_zero (w h p00 p10 p01 p11 : Nat) :
    bilinearSum w h 0 0 p00 p10 p01 p11 = bilinearSum w h 0 0 p00 p00 p00 p00 := by
  simp only [bilinearSum, Nat.zero_mul, Nat.mul_zero]

theorem mixPixel_of_weights_zero {w h : Nat} (hw : 0 < w) (hh : 0 < h) (p00 p10 p01 p11 : Pixel) :
    mixPixel w h 0 0 p00 p10 p01 p11 = p00 := by
  have hself := mixPixel_self hw hh (Nat.zero_le _) (Nat.zero_le _) p00
  simp only [mixPixel, mixChannel, bilinearSum_of_weights_zero] at hself ⊢
  exact hself

/-! ### Jobs -/

/-- Where no side is scaled, either filter gives the source pixel itself (41 R170 b, R173 c). -/
theorem resample_unscaled (j : Job) (m : Memory) {x y : Nat} (hx : x < j.ow.toNat) (hy : y < j.oh.toNat) :
    resample j m j.ow.toNat j.oh.toNat x y = srcPixel j m x y := by
  have hw := Nat.zero_lt_of_lt hx
  have hh := Nat.zero_lt_of_lt hy
  cases hf : j.filter with
  | false => rw [resample_of_filter_false hf, resampleNearest, nearestIndex_unscaled x hw, nearestIndex_unscaled y hh]
  | true =>
    simp only [resample_of_filter_true hf, resampleBilinear, bilinearWeight_unscaled hx, bilinearWeight_unscaled hy,
      bilinearLow_unscaled hx, bilinearLow_unscaled hy, mixPixel_of_weights_zero hw hh]

/-- Every pixel sampled from a uniform source is its one pixel (41 R173 d). -/
theorem resample_uniform (j : Job) (m : Memory) (p : Pixel) {w h x y : Nat} (how : 0 < j.ow.toNat) (hoh : 0 < j.oh.toNat)
    (hx : x < w) (hy : y < h) (hp : ∀ sx sy, sx < j.ow.toNat → sy < j.oh.toNat → srcPixel j m sx sy = p) :
    resample j m w h x y = p := by
  cases hf : j.filter with
  | false =>
    rw [resample_of_filter_false hf]
    exact hp _ _ (nearestIndex_lt how hx) (nearestIndex_lt hoh hy)
  | true =>
    have hw := Nat.zero_lt_of_lt hx
    have hh := Nat.zero_lt_of_lt hy
    rw [resample_of_filter_true hf, resampleBilinear, hp _ _ (bilinearLow_lt w x how) (bilinearLow_lt h y hoh),
      hp _ _ (bilinearHigh_lt w x how) (bilinearLow_lt h y hoh), hp _ _ (bilinearLow_lt w x how) (bilinearHigh_lt h y hoh),
      hp _ _ (bilinearHigh_lt w x how) (bilinearHigh_lt h y hoh)]
    exact mixPixel_self hw hh (bilinearWeight_lt _ x hw).le (bilinearWeight_lt _ y hh).le p

/-- What a job that answers OK reports: it passed its checks, and reports its target and its packed bytes (44 R231). -/
theorem runJob_ok {c : Config} {j : Job} {m : Memory} {choice : Bool} {w h : Nat} {bytes : List Byte}
    (hrun : runJob c j m choice = .ok w h bytes) :
    checkJob j = none ∧ (w, h) = jobDims j ∧ bytes = jobBytes c.lumaArith j m w h := by
  rcases runJob_cases c j m choice with ⟨e, -, herr⟩ | ⟨-, -, herr⟩ | ⟨hcheck, -, hok⟩
  · cases hrun.symm.trans herr
  · cases hrun.symm.trans herr
  · cases hrun.symm.trans hok
    exact ⟨hcheck, rfl, rfl⟩

/-- Packing reads the intensities of its own pixels only (43 R211). -/
theorem packBytes_congr {n : Nat} {f g : Nat → Nibble} (hfg : ∀ i < 2 * n, f i = g i) : packBytes n f = packBytes n g := by
  refine List.map_congr_left fun k hk => ?_
  have hlt : k < n := List.mem_range.mp hk
  rw [hfg (2 * k) (by omega), hfg (2 * k + 1) (by omega)]

/-- The bytes of an unscaled job are its quantized source pixels, packed in row-major order (42 R195, 43 R211). -/
theorem jobBytes_unscaled (arith : LumaArith) (j : Job) (m : Memory) :
    jobBytes arith j m j.ow.toNat j.oh.toNat = packBytes (j.ow.toNat * j.oh.toNat / 2)
      (fun i => quantize arith (srcPixel j m (i % j.ow.toNat) (i / j.ow.toNat))) := by
  refine packBytes_congr fun i hi => ?_
  have hpixel : i < j.ow.toNat * j.oh.toNat := hi.trans_le (Nat.mul_div_le _ 2)
  have hw : 0 < j.ow.toNat := Nat.pos_of_mul_pos_right (Nat.zero_lt_of_lt hpixel)
  rw [jobIntensity, resample_unscaled j m (Nat.mod_lt i hw) (Nat.div_lt_of_lt_mul hpixel)]

end Sys2Proof.Machine

/-! The statements of the resizer family: spec/41_resizer.md. -/

namespace Sys2Proof.Proofs

open Sys2Proof.Machine

/-- Settles O21: a source one column wide has the one target (2, 2*oh), any other source's sides do not grow, and the height
passes M only where step 2 raised the width. -/
theorem targetDimsBounds : Obligations.TargetDimsBounds := by
  refine ⟨fun ow oh m hw hw' hh hh' hm hwne hhne => ?_, by decide⟩
  obtain ⟨heven, hwidth, hheight⟩ := targetDims_le ow oh m hw hh
  have hlen := two_mul_packedLen heven
  have harea := targetDims_area_le hw hw' hh hh' hwne
  refine ⟨heven, by omega, by omega, by omega, by omega, fun htall => ?_, fun hover => ?_, hlen, by omega⟩
  · have hone : ow = 1 := by
      by_contra hne
      have hle := (targetDims_le_source (m := m) (show 2 ≤ ow by omega) hh).2
      omega
    subst hone
    exact ⟨rfl, targetDims_of_one_column hh hwne⟩
  · have hone : (scaleDown ow oh m).1 = 1 := by
      by_contra hne
      exact absurd (targetDims_height_le_bound hw hne) (by omega)
    exact ⟨hone, by rw [targetDims_of_one hone]⟩

/-- Settles O22: step 1 changes nothing, and step 2 has its three cases. -/
theorem unscaledTargetIsTheEvenSource : Obligations.UnscaledTargetIsTheEvenSource := by
  intro ow oh m _ hh hle
  have hscale := scaleDown_of_le hle
  refine ⟨targetDims_unscaled hle, fun hodd hgt => ?_, ?_⟩
  · rw [targetDims_of_odd (by rwa [hscale]) (by rwa [hscale]), hscale]
  · rintro rfl
    refine targetDims_of_one_column hh ?_
    rw [Ne, targetDims_width_eq_zero_iff, hscale]
    exact Nat.one_ne_zero

/-- Settles O23: a rounded quotient is 0 below one half, in step 1 and again in step 2; M = 0 makes both sides of step 1 0. -/
theorem targetIsZeroExactlyWhen : Obligations.TargetIsZeroExactlyWhen := by
  intro ow oh m hw hh
  refine ⟨(targetDims_width_eq_zero_iff ow oh m).trans (scaleDown_width_eq_zero_iff hw hh),
    scaleDown_height_eq_zero_iff hw hh, targetDims_height_eq_zero_iff hw, fun hm => ?_⟩
  have hwidth : (scaleDown ow oh m).1 = 0 := (scaleDown_width_eq_zero_iff hw hh).mpr (.inl hm)
  have hheight : (scaleDown ow oh m).2 = 0 := (scaleDown_height_eq_zero_iff hw hh).mpr (.inl hm)
  rw [targetDims_of_even (by rw [hwidth])]
  exact Prod.ext hwidth hheight

/-- Settles O24: the index is a quotient by 2n, and FILTER 0 is nearest along both axes. -/
theorem nearestTakesThePixelUnderTheCentre : Obligations.NearestTakesThePixelUnderTheCentre := by
  refine ⟨fun o n x ho hx => ?_, fun j m w h x y hf => by rw [resample_of_filter_false hf, resampleNearest]⟩
  have hn := Nat.zero_lt_of_lt hx
  obtain ⟨hlow, hhigh⟩ := nearestIndex_bounds o x hn
  refine ⟨nearestIndex_lt ho hx, hlow, hhigh, ?_⟩
  rintro rfl
  exact nearestIndex_unscaled x hn

/-- Settles O25: corner and weight divide the clamped position by 2n, whose upper clamp is the last source pixel. -/
theorem bilinearCornersStayInTheSource : Obligations.BilinearCornersStayInTheSource := by
  intro o n x ho hx
  have hn := Nat.zero_lt_of_lt hx
  have hlow := bilinearLow_lt n x ho
  have hhigh := bilinearHigh_lt n x ho
  refine ⟨?_, rfl, hlow, hhigh, bilinearWeight_lt o x hn,
    fun heq => bilinearWeight_eq_zero_of_last n x ho (bilinearLow_eq_last n x ho heq), fun hone => ?_, ?_⟩
  · rw [bilinearLow_mul_add_weight]
    exact bilinearPos_eq_clamp n x ho
  · exact ⟨by omega, by omega, bilinearWeight_eq_zero_of_last n x ho (by omega)⟩
  · rintro rfl
    exact ⟨bilinearLow_unscaled hx, bilinearWeight_unscaled hx⟩

/-- Settles O26: the four weights add up to 4WH, so the sum and its rounded quotient keep the corners' bounds. -/
theorem bilinearChannelStaysBetweenItsCorners : Obligations.BilinearChannelStaysBetweenItsCorners := by
  constructor
  · intro w h ax ay lo hi p00 p10 p01 p11 hw hh hax hay hbounds
    exact ⟨bilinearSum_le p00 p10 p01 p11 hax.le hay.le, mixChannel_toNat hw hh hax.le hay.le p00 p10 p01 p11,
      mixChannel_bounds hw hh hax.le hay.le hbounds⟩
  · rintro j m w h x y _ _ _ _ _ _ hf rfl rfl rfl rfl rfl rfl
    rw [resample_of_filter_true hf]
    simp only [List.forall_mem_cons, List.not_mem_nil, false_implies, implies_true, and_true]
    exact ⟨rfl, rfl, rfl, rfl⟩

/-- Settles O27: nearest reads one source pixel, and bilinear mixes four equal ones. -/
theorem uniformSourceGivesUniformGrid : Obligations.UniformSourceGivesUniformGrid := by
  intro j m p x y hcheck hp hx hy
  obtain ⟨how, hoh, -⟩ := dims_of_check j hcheck
  exact resample_uniform j m p how hoh hx hy hp

/-- Settles O42: the target is the source's own size, where both filters give the source pixel itself. -/
theorem unscaledJobEncodesTheSourceItself : Obligations.UnscaledJobEncodesTheSourceItself := by
  intro c j m choice w h bytes heven hle hrun
  obtain ⟨-, hdims, rfl⟩ := runJob_ok hrun
  obtain ⟨rfl, rfl⟩ := Prod.mk.inj (hdims.trans (targetDims_unscaled hle heven))
  exact ⟨rfl, rfl, jobBytes_unscaled c.lumaArith j m⟩

end Sys2Proof.Proofs

/-! The quantizer (spec/42_quantizer.md): luma in exact arithmetic, how far the binary64 evaluation can stray from it, and
the 4-bit quantization of a gray. -/

namespace Sys2Proof.Machine

/-- Rounding is monotonic (00_scope R7). -/
theorem rhu_mono {p p' : Nat} (q : Nat) (h : p ≤ p') : rhu p q ≤ rhu p' q :=
  Nat.div_le_div_right (Nat.add_le_add_right (Nat.mul_le_mul_left 2 h) q)

/-- For an even divisor, rounding adds half of it before dividing (00_scope R7). -/
theorem rhu_two_mul (p k : Nat) : rhu p (2 * k) = (p + k) / (2 * k) := by
  rw [rhu, ← Nat.mul_add, Nat.mul_div_mul_left _ _ Nat.two_pos]

/-- A quotient rounds to k exactly from k - 1/2 on and below k + 1/2 (00_scope R7). -/
theorem rhu_eq_iff {p q k : Nat} (hq : 0 < q) :
    rhu p q = k ↔ k * (2 * q) ≤ 2 * p + q ∧ 2 * p + q < (k + 1) * (2 * q) := by
  rw [rhu, Nat.div_eq_iff (by omega), Nat.add_one_mul k]
  omega

/-! ### The exact luma (42 R191) -/

theorem lumaExact_eq (r g b : Nat) : lumaExact r g b = (299 * r + 587 * g + 114 * b + 500) / 1000 :=
  rhu_two_mul _ 500

theorem lumaExact_le {r g b : Nat} (hr : r ≤ 255) (hg : g ≤ 255) (hb : b ≤ 255) : lumaExact r g b ≤ 255 :=
  rhu_le (by decide) (by omega)

/-- The three coefficients add up to 1000, so a gray is its own luma. -/
theorem lumaExact_gray (v : Nat) : lumaExact v v v = v := by
  have hsum : 299 * v + 587 * v + 114 * v = v * 1000 := by omega
  rw [lumaExact, hsum, rhu_mul_self v (by decide)]

/-! ### The binary64 luma (42 R192) -/

/-- Rounding to 53 significant bits moves a number of at most 54 + k bits by at most 2^k. -/
theorem fl64_near {n k : Nat} (hn : n < 2 ^ (k + 54)) : fl64 n ≤ n + 2 ^ k ∧ n ≤ fl64 n + 2 ^ k := by
  rw [fl64]
  split
  · exact ⟨Nat.le_add_right n _, Nat.le_add_right n _⟩
  · have hlog : n.log2 < k + 54 := (Nat.log2_lt (by omega)).mpr hn
    have hunit : 2 ^ (n.log2 - 52) ≤ 2 * 2 ^ k := by
      rw [← Nat.pow_succ']
      exact Nat.pow_le_pow_right Nat.two_pos (by omega)
    have hdiv := Nat.div_add_mod' n (2 ^ (n.log2 - 52))
    have hrem := Nat.mod_lt n (Nat.two_pow_pos (n.log2 - 52))
    simp only [Nat.add_one_mul]
    split <;> omega

/-- Five roundings and three coefficients, each off by a little, leave the binary64 sum within 2^23
thousandths of a unit of 2^-56 of the exact one. -/
theorem lumaSum64_near {r g b : Nat} (hr : r ≤ 255) (hg : g ≤ 255) (hb : b ≤ 255) :
    1000 * lumaSum64 r g b ≤ 2 ^ 56 * (299 * r + 587 * g + 114 * b) + 2 ^ 23 ∧
    2 ^ 56 * (299 * r + 587 * g + 114 * b) ≤ 1000 * lumaSum64 r g b + 2 ^ 23 := by
  have hmulR := fl64_near (n := coeffR * r) (k := 10) (by rw [coeffR]; omega)
  have hmulG := fl64_near (n := coeffG * g) (k := 10) (by rw [coeffG]; omega)
  have hmulB := fl64_near (n := coeffB * b) (k := 10) (by rw [coeffB]; omega)
  have hadd := fl64_near (n := fl64 (coeffR * r) + fl64 (coeffG * g)) (k := 10) (by rw [coeffR, coeffG] at *; omega)
  have hsum := fl64_near (n := fl64 (fl64 (coeffR * r) + fl64 (coeffG * g)) + fl64 (coeffB * b)) (k := 10)
    (by rw [coeffR, coeffG, coeffB] at *; omega)
  rw [lumaSum64]
  rw [coeffR, coeffG, coeffB] at *
  omega

/-- The binary64 luma rounds its sum half up: it is `rhu` of the sum in units of 2^-56. -/
theorem lumaBinary64_eq (r g b : Nat) : lumaBinary64 r g b = rhu (lumaSum64 r g b) (2 ^ 56) := by
  rw [lumaBinary64, rhu]
  split <;> omega

/-- The binary64 luma is the exact one, or one less: the sum may fall just short of a half that the exact one reaches. -/
theorem lumaBinary64_near {r g b : Nat} (hr : r ≤ 255) (hg : g ≤ 255) (hb : b ≤ 255) :
    lumaBinary64 r g b = lumaExact r g b ∨ lumaBinary64 r g b + 1 = lumaExact r g b := by
  obtain ⟨hhigh, hlow⟩ := lumaSum64_near hr hg hb
  obtain ⟨hbinLow, hbinHigh⟩ := (rhu_eq_iff (by decide)).mp (lumaBinary64_eq r g b).symm
  rw [lumaExact_eq]
  omega

/-- Off the exact ties the sum is at least 2^56 thousandths of a unit of 2^-56 away from the nearest half, so `rhu` gives the
exact luma. -/
theorem lumaBinary64_of_not_tie {r g b : Nat} (hr : r ≤ 255) (hg : g ≤ 255) (hb : b ≤ 255)
    (htie : (299 * r + 587 * g + 114 * b) % 1000 ≠ 500) : lumaBinary64 r g b = lumaExact r g b := by
  obtain ⟨hhigh, hlow⟩ := lumaSum64_near hr hg hb
  have hbelow : 1000 * lumaExact r g b < 299 * r + 587 * g + 114 * b + 500 := by
    rw [lumaExact_eq]
    omega
  have habove : 299 * r + 587 * g + 114 * b + 500 < 1000 * (lumaExact r g b + 1) := by
    rw [lumaExact_eq]
    omega
  rw [lumaBinary64_eq, rhu_eq_iff (by decide)]
  omega

/-! ### The luma in either arithmetic -/

theorem luma_le (arith : LumaArith) {r g b : Nat} (hr : r ≤ 255) (hg : g ≤ 255) (hb : b ≤ 255) :
    luma arith r g b ≤ 255 := by
  have hexact := lumaExact_le hr hg hb
  cases arith with
  | decimal => exact hexact
  | binary64 =>
    rw [luma]
    have hnear := lumaBinary64_near hr hg hb
    omega

/-- A gray is its own luma: its exact sum is a whole number, never a tie. -/
theorem luma_gray (arith : LumaArith) {v : Nat} (hv : v ≤ 255) : luma arith v v v = v := by
  cases arith with
  | decimal => exact lumaExact_gray v
  | binary64 => exact (lumaBinary64_of_not_tie hv hv hv (by omega)).trans (lumaExact_gray v)

/-! ### Quantizing a gray (42 R193) -/

theorem quant4_eq (gray : Nat) : quant4 gray = (gray + 8) / 17 := by
  rw [quant4, rhu]
  omega

theorem quant4_mono {gray gray' : Nat} (h : gray ≤ gray') : quant4 gray ≤ quant4 gray' :=
  rhu_mono 255 (Nat.mul_le_mul_left 15 h)

theorem quant4_le {gray : Nat} (h : gray ≤ 255) : quant4 gray ≤ 15 := quant4_mono h

/-- The thresholds of the two roundings coincide, so one rounding by 17000 does for both (42 R194). -/
theorem quant4_rhu (sum : Nat) : quant4 (rhu sum 1000) = (sum + 8500) / 17000 := by
  have hround : rhu sum 1000 = (sum + 500) / 1000 := rhu_two_mul sum 500
  rw [quant4_eq, hround]
  omega

theorem luma_pixel_le (arith : LumaArith) (p : Pixel) : luma arith p.r.toNat p.g.toNat p.b.toNat ≤ 255 :=
  luma_le arith (Nat.le_of_lt_succ p.r.isLt) (Nat.le_of_lt_succ p.g.isLt) (Nat.le_of_lt_succ p.b.isLt)

/-- An intensity fits its nibble untruncated (42 R196 c). -/
theorem quantize_toNat (arith : LumaArith) (p : Pixel) :
    (quantize arith p).toNat = quant4 (luma arith p.r.toNat p.g.toNat p.b.toNat) := by
  rw [quantize, BitVec.toNat_ofNat]
  exact Nat.mod_eq_of_lt (Nat.lt_succ_of_le (quant4_le (luma_pixel_le arith p)))

/-- A gray pixel is quantized from its channel value, whatever alpha. -/
theorem quantize_gray (arith : LumaArith) (v alpha : Byte) :
    quantize arith { r := v, g := v, b := v, a := alpha } = BitVec.ofNat 4 (quant4 v.toNat) := by
  rw [quantize, luma_gray arith (Nat.le_of_lt_succ v.isLt)]

end Sys2Proof.Machine

/-! The statements of the quantizer family: spec/42_quantizer.md. -/

namespace Sys2Proof.Proofs

open Sys2Proof.Machine

/-- Settles O29: round-half-up by 1000 of a weighted sum of at most 255000. -/
theorem exactLumaIsBoundedAndKeepsGrays : Obligations.ExactLumaIsBoundedAndKeepsGrays := fun r g b hr hg hb =>
  ⟨lumaExact_eq r g b, lumaExact_le hr hg hb, lumaExact_gray r⟩

/-- Settles O30: the binary64 sum is too near the exact one to round elsewhere, except at a tie. -/
theorem binaryLumaDiffersOnTiesOnly : Obligations.BinaryLumaDiffersOnTiesOnly := fun _ _ _ hr hg hb =>
  ⟨lumaBinary64_of_not_tie hr hg hb, lumaBinary64_near hr hg hb⟩

/-- Settles O31: black and white are grays, a gray is its own luma, and QUANT4 is monotonic. -/
theorem quantizerIsMonotonicBetweenBlackAndWhite : Obligations.QuantizerIsMonotonicBetweenBlackAndWhite := by
  intro arith p q alpha
  refine ⟨quantize_gray arith 0#8 alpha, quantize_gray arith 255#8 alpha, quantize_toNat arith p,
    quant4_le (luma_pixel_le arith p), fun hlt => ?_⟩
  rw [quantize_toNat, quantize_toNat]
  exact quant4_mono hlt.le

/-- Settles O32: QUANT4 divides by 17 after the luma's division by 1000. -/
theorem twoStageRoundingEqualsTheFusedOne : Obligations.TwoStageRoundingEqualsTheFusedOne :=
  ⟨fun gray _ => quant4_eq gray, fun sum _ => quant4_rhu sum, fun _ _ _ _ _ _ => quant4_rhu _⟩

end Sys2Proof.Proofs

/-! The packer (spec/43_packer.md): a byte and its two nibbles, and where the pixels of an even-width grid fall. -/

namespace Sys2Proof.Machine

/-! ### One byte (43 R210, R214) -/

@[simp] theorem highNibble_packByte (hi lo : Nibble) : highNibble (packByte hi lo) = hi :=
  BitVec.extractLsb'_append_eq_left

@[simp] theorem lowNibble_packByte (hi lo : Nibble) : lowNibble (packByte hi lo) = lo :=
  BitVec.extractLsb'_append_eq_right

@[simp] theorem packByte_nibbles (b : Byte) : packByte (highNibble b) (lowNibble b) = b :=
  (BitVec.extractLsb'_append_extractLsb'_eq_extractLsb' rfl).trans BitVec.extractLsb'_eq_self

theorem packByte_toNat (hi lo : Nibble) : (packByte hi lo).toNat = 16 * hi.toNat + lo.toNat := by
  rw [packByte, BitVec.toNat_append, ← Nat.shiftLeft_add_eq_or_of_lt lo.isLt, Nat.shiftLeft_eq, Nat.mul_comm]

/-! ### The ByteArray (43 R211) -/

theorem getElem?_packBytes {n k : Nat} (f : Nat → Nibble) (h : k < n) :
    (packBytes n f)[k]? = some (packByte (f (2 * k)) (f (2 * k + 1))) := by
  rw [List.getElem?_eq_getElem (by rwa [length_packBytes]), getElem_packBytes]

/-! ### Rows of even width (43 R212) -/

theorem two_mul_mod_mod_two {w : Nat} (k : Nat) (heven : w % 2 = 0) : 2 * k % w % 2 = 0 := by
  rw [Nat.mod_mod_of_dvd _ (Nat.dvd_of_mod_eq_zero heven), Nat.mul_mod_right]

/-- An even column of an even-width row is not its last. -/
theorem succ_two_mul_mod_lt {w : Nat} (k : Nat) (heven : w % 2 = 0) (hw : 0 < w) : 2 * k % w + 1 < w := by
  have hcolumn := two_mul_mod_mod_two k heven
  have hlt := Nat.mod_lt (2 * k) hw
  omega

/-- Off the last column, the next row-major index is the right-hand neighbour. -/
theorem jobIntensity_succ (arith : LumaArith) (j : Job) (m : Memory) {w i : Nat} (h : Nat) (hlast : i % w + 1 < w) :
    jobIntensity arith j m w h (i + 1) = quantize arith (resample j m w h (i % w + 1) (i / w)) := by
  obtain ⟨hdiv, hmod⟩ := (Nat.div_mod_unique (a := i + 1) (d := i / w) (Nat.zero_lt_of_lt hlast)).mpr
    ⟨by rw [Nat.add_right_comm, Nat.mod_add_div], hlast⟩
  rw [jobIntensity, hdiv, hmod]

/-- Byte `k` lies in the `w / 2` bytes of row `r` exactly where its even pixel does. -/
theorem byte_in_row_iff {w : Nat} (k r : Nat) (heven : w % 2 = 0) (hw : 0 < w) :
    (r * (w / 2) ≤ k ∧ k ≤ (r + 1) * (w / 2) - 1) ↔ r = 2 * k / w := by
  have hhalf : 0 < w / 2 := by omega
  have hrow : 2 * k / w = k / (w / 2) := by
    rw [← Nat.mul_div_mul_left k (w / 2) Nat.two_pos, Nat.mul_div_cancel' (Nat.dvd_of_mod_eq_zero heven)]
  rw [hrow, eq_comm, Nat.div_eq_iff hhalf, Nat.add_one_mul]

end Sys2Proof.Machine

/-! The statements of the packer family: spec/43_packer.md. -/

namespace Sys2Proof.Proofs

open Sys2Proof.Machine

/-- Settles O33: byte k is the packing of entries 2k and 2k + 1, and packing loses neither nibble. -/
theorem unpackingGivesTheIntensitiesBack : Obligations.UnpackingGivesTheIntensitiesBack := by
  refine ⟨fun n f k hk => ?_, packByte_nibbles⟩
  rw [getElem?_packBytes f hk, Option.map_some, Option.map_some, highNibble_packByte, lowNibble_packByte]
  exact ⟨rfl, rfl⟩

/-- Settles O34: the even pixel of byte k is never the last of its row, so pixel 2k + 1 is its right-hand neighbour. -/
theorem packedPairsLieInOneRow : Obligations.PackedPairsLieInOneRow := by
  intro arith j m w h heven
  have hlen : 2 * packedLen (w, h) = w * h := two_mul_packedLen heven
  refine ⟨by rw [length_jobBytes, hlen], ?_⟩
  rintro k x y left right hk rfl rfl rfl rfl
  have hw : 0 < w := Nat.pos_of_mul_pos_right (Nat.zero_lt_of_lt hk)
  have hnext := succ_two_mul_mod_lt k heven hw
  refine ⟨two_mul_mod_mod_two k heven, hnext, Nat.div_lt_of_lt_mul hk, ⟨_, ?_, rfl, packByte_toNat _ _⟩,
    fun r => byte_in_row_iff k r heven hw⟩
  rw [jobBytes, getElem?_packBytes _ (by omega), jobIntensity_succ arith j m h hnext, jobIntensity]

end Sys2Proof.Proofs

/-! The job sequence (spec/44_job_sequence.md): what the completion step leaves in the result registers and in memory, and
the run of a job from its last START to its end. -/

namespace Sys2Proof.Machine

/-! ### The completion step -/

/-- The engine's turn while BUSY, on memory without side effects, publishes the outcome of RunJob (44 R240). -/
theorem engineTurn_of_busy (s : State) (hb : s.phase = .busy) (hn : regionsNormal s.config s.job = true) :
    engineTurn s =
      .next (finishJob (runJob s.config s.job s.mem (Config.freeChoice s.draws)) (spendChoice s)) := by
  simp [engineTurn, hb, completionStep, hn]

/-- The result registers hold the numbers of a passing job untruncated (44 R240, 41 R166). -/
theorem publish_results_toNat (j : Job) (bytes : List Byte) (s : State) (hc : checkJob j = none)
    (hlen : bytes.length = packedLen (jobDims j)) :
    (publish (jobDims j).1 (jobDims j).2 bytes s).outW.toNat = (jobDims j).1 ∧
    (publish (jobDims j).1 (jobDims j).2 bytes s).outH.toNat = (jobDims j).2 ∧
    (publish (jobDims j).1 (jobDims j).2 bytes s).outLen.toNat = bytes.length := by
  obtain ⟨-, -, hw, -, hh, -, hfit⟩ := jobDims_bounds j hc
  rw [publish_outW, publish_outH, publish_outLen, hlen]
  exact ⟨Nat.mod_eq_of_lt (by omega), Nat.mod_eq_of_lt (by omega), Nat.mod_eq_of_lt hfit⟩

/-- The result of a passing job is not 0 in any of its registers (44 R242): two columns and a row make a byte. -/
theorem publish_results_ne_zero (j : Job) (bytes : List Byte) (s : State) (hc : checkJob j = none)
    (hlen : bytes.length = packedLen (jobDims j)) :
    (publish (jobDims j).1 (jobDims j).2 bytes s).outW ≠ 0#32 ∧
    (publish (jobDims j).1 (jobDims j).2 bytes s).outH ≠ 0#32 ∧
    (publish (jobDims j).1 (jobDims j).2 bytes s).outLen ≠ 0#32 := by
  obtain ⟨hoW, hoH, hoLen⟩ := publish_results_toNat j bytes s hc hlen
  obtain ⟨-, hw, -, hh, -, hmul, -⟩ := jobDims_bounds j hc
  have harea : 2 * 1 ≤ (jobDims j).1 * (jobDims j).2 := Nat.mul_le_mul hw hh
  simp only [ne_eq, ← BitVec.toNat_inj, hoW, hoH, hoLen, BitVec.toNat_zero]
  omega

/-- Publishing writes the bytes from JOB.dst on and no other byte (44 R240). -/
theorem publish_memory (w h : Nat) (bytes : List Byte) (s : State) :
    (∀ (k : Nat) (hk : k < bytes.length), Memory.read (publish w h bytes s).mem (s.job.dst.toNat + k) = bytes[k]) ∧
    SameOutside s.job.dst.toNat (s.job.dst.toNat + bytes.length) s.mem (publish w h bytes s).mem :=
  ⟨read_writeRun_inside bytes s.mem _, read_writeRun_outside bytes s.mem _⟩

/-- The completion step consumes no event. -/
theorem completionStep_events (s t : State) (h : completionStep s = .next t) : t.events = s.events := by
  rcases completionStep_ends s t h with ⟨e, rfl⟩ | ⟨-, bytes, -, rfl⟩
  · exact errorEntry_events e (spendChoice s)
  · rfl

/-- From a legal BUSY state the completion step sets exactly one of DONE and ERR (10_state R45). -/
theorem completionStep_done_eq_not_err (s t : State) (h : completionStep s = .next t) (hs : RegsLegal s)
    (hb : s.phase = .busy) : t.done = !t.err := by
  obtain ⟨-, hflag, -⟩ := completionStep_next s t h
  obtain ⟨⟨-, hboth, -⟩, -⟩ := completionStep_keeps_regsLegal s t h hs hb
  cases he : t.err with
  | true => simpa [he] using hboth
  | false => simpa [he] using hflag

/-! ### The run of a job -/

/-- No transaction ends a job: a START while BUSY does nothing, and no other kind changes PHASE (10_state R22). -/
theorem exec_keeps_busy (i : Instr) (s t : State) (h : exec i s = .next t) (hb : s.phase = .busy) : t.phase = .busy := by
  rcases exec_cases i s t h with ⟨w, -, rfl⟩ | ⟨w, -, rfl⟩ | ⟨w, -, rfl⟩ | ⟨-, c, v, -, rfl⟩
  · rwa [startJob_busy (ctrlUpdate w s) hb]
  all_goals exact hb

/-- A legal state in which a job runs whose regions lie on memory without side effects (70 R311). -/
structure JobRunning (s : State) : Prop where
  legal : RegsLegal s
  busy : s.phase = .busy
  normal : regionsNormal s.config s.job = true

/-- A transaction leaves a running job running. -/
theorem exec_keeps_jobRunning (i : Instr) (s t : State) (h : exec i s = .next t) (hs : JobRunning s) : JobRunning t := by
  obtain ⟨-, -, -, -, hconfig⟩ := exec_frame i s t h
  refine ⟨exec_keeps_regsLegal i s t h hs.legal, exec_keeps_busy i s t h hs.busy, ?_⟩
  rw [hconfig, exec_keeps_job_of_busy i s t h hs.busy]
  exact hs.normal

/-- A step with a transaction next takes it off the list and leaves a running job running (40 R146). -/
theorem step_of_transaction_of_jobRunning (s : State) (w : TWord) (es : List Event) (hs : JobRunning s)
    (he : s.events = .transaction w :: es) : ∃ t, step s = .next t ∧ JobRunning t ∧ t.events = es := by
  obtain ⟨t, ht⟩ := exec_goes_on (decode w) { s with events := es }
  obtain ⟨-, -, hevents, -⟩ := exec_frame _ _ t ht
  have hdropped : JobRunning { s with events := es } := ⟨hs.legal, hs.busy, hs.normal⟩
  exact ⟨t, (step_of_transaction s w es he).trans ht, exec_keeps_jobRunning _ _ t ht hdropped, hevents⟩

/-- With no event left, the step of a running job ends it (44 R239, log 2). -/
theorem step_of_no_event_of_jobRunning (s : State) (hs : JobRunning s) (he : s.events = []) :
    ∃ t, step s = .next t ∧ t.phase = .idle ∧ t.events = [] ∧ t.done = !t.err := by
  obtain ⟨t, ht⟩ := completionStep_goes_on s hs.normal
  obtain ⟨hidle, -⟩ := completionStep_next s t ht
  refine ⟨t, ?_, hidle, (completionStep_events s t ht).trans he, completionStep_done_eq_not_err s t ht hs.legal hs.busy⟩
  rw [step_of_no_event s he, engineTurn, hs.busy]
  exact ht

/-- A run of one step more begins with that step. -/
theorem run_succ_of_step {s t : State} (h : step s = .next t) (k : Nat) :
    Host.Core.run core (k + 1) s = Host.Core.run core k t := by
  have hstep : core.step s = .next t := h
  simp only [Host.Core.run, hstep]

/-- A running job outlasts the transactions of the event list and ends in the step after them (44 R239). -/
theorem run_ends_job (es : List Event) (s : State) (hs : JobRunning s) (he : s.events = es)
    (htr : ∀ e ∈ es, e.isTransaction = true) :
    ∃ t, Host.Core.run core (es.length + 1) s = .next t ∧ t.phase = .idle ∧ t.events = [] ∧ t.done = !t.err := by
  induction es generalizing s with
  | nil =>
    obtain ⟨t, hstep, hend⟩ := step_of_no_event_of_jobRunning s hs he
    exact ⟨t, run_succ_of_step hstep 0, hend⟩
  | cons e es ih =>
    obtain ⟨hfirst, hrest⟩ := List.forall_mem_cons.mp htr
    cases e with
    | transaction w =>
      obtain ⟨u, hstep, hu, hevents⟩ := step_of_transaction_of_jobRunning s w es hs he
      obtain ⟨t, hrun, hend⟩ := ih u hu hevents hrest
      exact ⟨t, (run_succ_of_step hstep _).trans hrun, hend⟩
    | engine | reset | hostWrite | hostRead => cases hfirst

end Sys2Proof.Machine

/-! The statements of the job sequence family: spec/44_job_sequence.md. -/

namespace Sys2Proof.Proofs

open Sys2Proof.Machine

/-- Settles O37: an OK outcome comes from a job that passed its checks, whose numbers fit the result registers. -/
theorem completionPublishesTheOutcome : Obligations.CompletionPublishesTheOutcome := by
  rintro s w h bytes c _ hb hn rfl
  have hturn := engineTurn_of_busy s hb hn
  refine ⟨fun hok => ?_, fun herr => ⟨spendChoice s, by rw [hturn, herr, finishJob], rfl⟩⟩
  obtain ⟨hc, hdims, hbytes⟩ := runJob_ok hok
  have hlen : bytes.length = packedLen (jobDims s.job) := by rw [hbytes, length_jobBytes, hdims]
  obtain ⟨rfl, rfl⟩ := Prod.mk.inj hdims
  obtain ⟨hinside, houtside⟩ := publish_memory (jobDims s.job).1 (jobDims s.job).2 bytes (spendChoice s)
  obtain ⟨hoW, hoH, hoLen⟩ := publish_results_toNat s.job bytes (spendChoice s) hc hlen
  rw [hok, finishJob] at hturn
  exact ⟨_, hturn, hinside, houtside, hoW, hoH, hoLen, rfl, rfl, rfl, rfl, rfl, ⟨rfl, rfl, rfl, rfl, rfl, rfl, rfl⟩,
    rfl, rfl, rfl, rfl⟩

/-- Settles O39: a legal BUSY state has neither flags nor results; error entry adds a code alone, publishing a result
alone. -/
theorem noPartialResults : Obligations.NoPartialResults := by
  intro s t hs hb h
  obtain ⟨hd, he, hcode, hw, hh, hlen⟩ := regsLegal_busy s hs hb
  rcases completionStep_ends s t h with ⟨e, rfl⟩ | ⟨hc, bytes, hbytes, rfl⟩
  · right
    simp [hd, hw, hh, hlen, e.code_range]
  · exact .inl ⟨rfl, he, hcode, publish_results_ne_zero s.job bytes (spendChoice s) hc hbytes⟩

/-- Settles O51, by induction on the transactions that are left. -/
theorem everyJobEndsAfterTheLastTransaction : Obligations.EveryJobEndsAfterTheLastTransaction := fun s hs hb hn htr =>
  run_ends_job s.events s ⟨hs, hb, hn⟩ rfl htr

end Sys2Proof.Proofs

/-! Errors (spec/60_exceptions.md): the checks in plain numbers, what the bus says of a job's accesses address by address,
and what RunJob then reports. -/

namespace Sys2Proof.Machine

/-! ### The checks in plain numbers (60 R262 to R265) -/

theorem hasInvalidDimensions_iff (j : Job) : hasInvalidDimensions j = true ↔ j.ow.toNat = 0 ∨ j.oh.toNat = 0 := by
  simp [hasInvalidDimensions, ← BitVec.toNat_inj]

theorem hasTargetDimZero_iff (j : Job) : hasTargetDimZero j = true ↔ (jobDims j).1 = 0 ∨ (jobDims j).2 = 0 := by
  simp [hasTargetDimZero]

theorem hasAddrRange_iff (j : Job) :
    hasAddrRange j = true ↔ (srcRegion j).hi > addressSpace ∨ (dstRegion j).hi > addressSpace := by
  simp [hasAddrRange]

theorem hasOverlap_iff (j : Job) :
    hasOverlap j = true ↔ (srcRegion j).lo < (dstRegion j).hi ∧ (dstRegion j).lo < (srcRegion j).hi := by
  simp [hasOverlap]

/-- The first check a job fails, by the conditions of R262 to R265 in the order of R267. -/
theorem checkJob_eq (j : Job) :
    checkJob j =
      if j.ow.toNat = 0 ∨ j.oh.toNat = 0 then some .invalidDimensions
      else if (jobDims j).1 = 0 ∨ (jobDims j).2 = 0 then some .targetDimZero
      else if (srcRegion j).hi > addressSpace ∨ (dstRegion j).hi > addressSpace then some .addrRange
      else if (srcRegion j).lo < (dstRegion j).hi ∧ (dstRegion j).lo < (srcRegion j).hi then some .overlap
      else none := by
  simp only [checkJob, hasInvalidDimensions_iff, hasTargetDimZero_iff, hasAddrRange_iff, hasOverlap_iff]

/-! ### What the bus says, address by address (60 R266) -/

/-- An address of `NEED ∪ DST_REGION`, which the job must read or write (60 R266). -/
def MustAccess (j : Job) (a : Nat) : Prop :=
  a ∈ neededAddrs j (jobDims j).1 (jobDims j).2 ∨ AddrRange.has (dstRegion j) a = true

/-- The first test of `busVerdict` finds a bad byte exactly where the job must access one. -/
theorem bad_mustAccess_iff (c : Config) (j : Job) :
    ((neededAddrs j (jobDims j).1 (jobDims j).2).any (fun a => !memOK c a) || badByteIn c (dstRegion j)) = true ↔
      ∃ a, MustAccess j a ∧ memOK c a = false := by
  simp only [MustAccess, or_and_right, exists_or, Bool.or_eq_true, badByteIn_iff, List.any_eq_true, Bool.not_eq_true']

theorem busVerdict_fails (c : Config) (j : Job) (hbad : ∃ a, MustAccess j a ∧ memOK c a = false) :
    busVerdict c j = .fails :=
  if_pos ((bad_mustAccess_iff c j).mpr hbad)

/-- Where every byte that must be accessed answers, SRC_REGION decides. -/
theorem busVerdict_of_mustAccess_ok (c : Config) (j : Job) (hok : ∀ a, MustAccess j a → memOK c a = true) :
    busVerdict c j = if badByteIn c (srcRegion j) then .mayFail else .clean := by
  refine if_neg fun htest => ?_
  obtain ⟨a, hmust, hbad⟩ := (bad_mustAccess_iff c j).mp htest
  cases (hok a hmust).symm.trans hbad

theorem busVerdict_mayFail (c : Config) (j : Job) (hok : ∀ a, MustAccess j a → memOK c a = true)
    (hbad : ∃ a, AddrRange.has (srcRegion j) a = true ∧ memOK c a = false) : busVerdict c j = .mayFail := by
  rw [busVerdict_of_mustAccess_ok c j hok, if_pos ((badByteIn_iff c _).mpr hbad)]

/-- A passing job needs no byte outside SRC_REGION (20_memory R67), so it is enough that its two regions answer. -/
theorem busVerdict_clean (c : Config) (j : Job) (hc : checkJob j = none)
    (hok : ∀ a, AddrRange.has (srcRegion j) a = true ∨ AddrRange.has (dstRegion j) a = true → memOK c a = true) :
    busVerdict c j = .clean := by
  have hmust : ∀ a, MustAccess j a → memOK c a = true := by
    rintro a (hneed | hdst)
    · obtain ⟨hsrc, -⟩ := Proofs.neededBytesLieInTheSource j a hc hneed
      exact hok a (.inl hsrc)
    · exact hok a (.inr hdst)
  rw [busVerdict_of_mustAccess_ok c j hmust, if_neg]
  intro htest
  obtain ⟨a, hsrc, hbad⟩ := (badByteIn_iff c _).mp htest
  cases (hok a (.inl hsrc)).symm.trans hbad

/-! ### What RunJob reports (44 R231) -/

theorem runJob_of_check {j : Job} {e : ErrCode} (c : Config) (m : Memory) (choice : Bool) (hc : checkJob j = some e) :
    runJob c j m choice = .err e := by
  simp only [runJob, hc]

theorem runJob_of_fails {c : Config} {j : Job} (m : Memory) (choice : Bool) (hc : checkJob j = none)
    (hv : busVerdict c j = .fails) : runJob c j m choice = .err .busError := by
  simp only [runJob, hc, hv]

theorem runJob_of_mayFail {c : Config} {j : Job} (m : Memory) (choice : Bool) (hc : checkJob j = none)
    (hv : busVerdict c j = .mayFail) :
    runJob c j m choice =
      if choice then .err .busError
      else .ok (jobDims j).1 (jobDims j).2 (jobBytes c.lumaArith j m (jobDims j).1 (jobDims j).2) := by
  simp only [runJob, hc, hv]

theorem runJob_of_clean {c : Config} {j : Job} (m : Memory) (choice : Bool) (hc : checkJob j = none)
    (hv : busVerdict c j = .clean) :
    runJob c j m choice = .ok (jobDims j).1 (jobDims j).2 (jobBytes c.lumaArith j m (jobDims j).1 (jobDims j).2) := by
  simp only [runJob, hc, hv]

/-- A job that passed its checks ends with BUS_ERROR or with its target and LEN bytes (44 R232). -/
theorem runJob_of_passed {j : Job} (c : Config) (m : Memory) (choice : Bool) (hc : checkJob j = none) :
    runJob c j m choice = .err .busError ∨
      ∃ bytes, runJob c j m choice = .ok (jobDims j).1 (jobDims j).2 bytes ∧ bytes.length = packedLen (jobDims j) := by
  rcases runJob_cases c j m choice with ⟨e, he, -⟩ | ⟨-, -, herr⟩ | ⟨-, -, hok⟩
  · cases hc.symm.trans he
  · exact .inl herr
  · exact .inr ⟨_, hok, length_jobBytes _ _ _ _ _⟩

/-! ### Error entry (60 R270) -/

/-- After error entry irq is IRQ_EN: ERR is set (60 R275). -/
theorem irq_errorEntry (c : ErrCode) (s : State) : (errorEntry c s).irq = s.irqEn := by
  simp [State.irq]

end Sys2Proof.Machine

/-! The statements of the exceptions family: spec/60_exceptions.md. -/

namespace Sys2Proof.Proofs

open Sys2Proof.Machine

/-- Settles O35, check by check in the order of R267. -/
theorem firstFailingCheckIsReported : Obligations.FirstFailingCheckIsReported := by
  rintro c j m choice _ _ _ _ _ _ rfl rfl rfl rfl rfl rfl
  have hcheck := checkJob_eq j
  split_ifs with hinvalid hzero hrange hoverlap
  · exact runJob_of_check c m choice (hcheck.trans (if_pos hinvalid))
  all_goals replace hcheck := hcheck.trans (if_neg hinvalid)
  · exact runJob_of_check c m choice (hcheck.trans (if_pos hzero))
  all_goals replace hcheck := hcheck.trans (if_neg hzero)
  · exact runJob_of_check c m choice (hcheck.trans (if_pos hrange))
  all_goals replace hcheck := hcheck.trans (if_neg hrange)
  · exact runJob_of_check c m choice (hcheck.trans (if_pos hoverlap))
  · exact runJob_of_passed c m choice (hcheck.trans (if_neg hoverlap))

/-- Settles O36: each line of R266 is one verdict of the bus, and NEED lies in SRC_REGION. -/
theorem busErrorExactlyWhereTheBusFails : Obligations.BusErrorExactlyWhereTheBusFails := by
  rintro c j m choice _ hc rfl
  refine ⟨fun hbad => ?_, fun hok hbad => ?_, fun hok => ?_⟩
  · exact runJob_of_fails m choice hc (busVerdict_fails c j hbad)
  · have hv := busVerdict_mayFail c j hok hbad
    exact ⟨runJob_of_mayFail m true hc hv, runJob_of_mayFail m false hc hv⟩
  · exact runJob_of_clean m choice hc (busVerdict_clean c j hc hok)

/-- Settles O38: the registers by the laws of error entry, ERRCODE cause by cause, memory by its two frames. -/
theorem errorEntryRecordsOnlyTheCode : Obligations.ErrorEntryRecordsOnlyTheCode := by
  intro s c
  have hsetup : SameSetup s (errorEntry c s) := by simp [SameSetup]
  have hsame : SameSurroundings s (errorEntry c s) := by simp [SameSurroundings]
  refine ⟨rfl, ?_, rfl, irq_errorEntry c s, errorEntry_done c s, errorEntry_outW c s, errorEntry_outH c s,
    errorEntry_outLen c s, errorEntry_job c s, hsetup, hsame, fun hc => errorEntry_mem_of_check c hc s,
    errorEntry_outside c s⟩
  cases c <;> rfl

end Sys2Proof.Proofs

/-! Hazards and the end of a job (spec/70_reset_and_hazards.md): the step that issues a START, and the step that the engine
takes. -/

namespace Sys2Proof.Machine

/-- With an event next, taking it off leaves the rest of the list. -/
theorem dropEvent_of_event (s : State) (e : Event) (es : List Event) (h : s.events = e :: es) :
    dropEvent s = { s with events := es } := by
  rw [dropEvent, h]
  rfl

section
variable {i : Instr} {wdata : Word} {s : State} {es : List Event}

/-- The step that issues a well-formed START takes its word off the list, updates the CTRL fields and starts the job
(40 R126, R127, R146). -/
theorem step_of_start (hi : i = .startNearest wdata ∨ i = .startBilinear wdata) (hwf : i.wf = true)
    (he : s.events = .transaction (encode i) :: es) :
    step s = .next (startJob (ctrlUpdate wdata { s with events := es })) := by
  rw [step_of_transaction s (encode i) es he, Proofs.decodeOfEncodeIsTheTransaction i hwf]
  exact exec_start _ hi

/-- The step that issues a START in IDLE latches the configuration registers and the FILTER it writes (40 R125, 70 R324). -/
theorem step_of_start_of_idle (hi : i = .startNearest wdata ∨ i = .startBilinear wdata) (hwf : i.wf = true)
    (hidle : s.phase = .idle) (he : s.events = .transaction (encode i) :: es) :
    ∃ t, step s = .next t ∧ t.phase = .busy ∧
      t.job = { src := s.srcAddr, ow := s.srcW, oh := s.srcH, maxDim := s.maxDim, dst := s.dstAddr,
                filter := wdata.getLsbD 1 } ∧
      t.err = false ∧ t.events = es ∧ t.mem = s.mem := by
  refine ⟨_, step_of_start hi hwf he, ?_⟩
  rw [startJob_idle (ctrlUpdate wdata { s with events := es }) hidle]
  exact ⟨rfl, rfl, rfl, rfl, rfl⟩

/-- The step that issues a START in BUSY is the CTRL field update and nothing further (40 R125, 70 R320). -/
theorem step_of_start_of_busy (hi : i = .startNearest wdata ∨ i = .startBilinear wdata) (hwf : i.wf = true)
    (hbusy : s.phase = .busy) (he : s.events = .transaction (encode i) :: es) :
    step s = .next (ctrlUpdate wdata { s with events := es }) := by
  rw [step_of_start hi hwf he, startJob_busy (ctrlUpdate wdata { s with events := es }) hbusy]

end

end Sys2Proof.Machine

/-! The statements of the reset and hazards family: spec/70_reset_and_hazards.md. -/

namespace Sys2Proof.Proofs

open Sys2Proof.Machine

/-- Settles O10: the first START latches the job from the registers and the FILTER it writes; the second finds the block
BUSY, so only its CTRL field update is left. -/
theorem secondStartWhileBusyIsLost : Obligations.SecondStartWhileBusyIsLost := by
  intro s a b i k es hidle hi hk hiwf hkwf he
  obtain ⟨u, hfirst, hbusy, hjob, herr, hevents, hmem⟩ := step_of_start_of_idle hi hiwf hidle he
  have hsecond := step_of_start_of_busy hk hkwf hbusy hevents
  exact ⟨ctrlUpdate b { u with events := es }, (run_succ_of_step hfirst 1).trans (run_succ_of_step hsecond 0), hbusy,
    hjob, rfl, rfl, herr, rfl, hmem⟩

/-- Settles O19: a running job outlasts a transaction and the host's own accesses to memory, so the engine's turn and the
reset event are left. -/
theorem onlyCompletionOrResetEndsAJob : Obligations.OnlyCompletionOrResetEndsAJob := by
  intro s t h hb hidle
  have hd : (dropEvent s).phase = .busy := hb
  have hnot : t.phase ≠ .busy := by rw [hidle]; decide
  rcases step_next s t h with ⟨hev, hturn⟩ | ⟨w, -, -, hx⟩ | ⟨es, he, -⟩ | ⟨a, v, -, -, hm⟩ | ⟨a, -, -, hr⟩
  · obtain ⟨hi, -⟩ | ⟨-, hc⟩ := engineTurn_cases _ t hturn
    · cases hd.symm.trans hi
    · rcases hev with he | ⟨es, he⟩
      · rw [dropEvent_of_no_event s he] at hc
        exact .inl ⟨he, hc⟩
      · rw [dropEvent_of_event s .engine es he] at hc
        exact .inr (.inl ⟨es, he, hc⟩)
  · exact absurd (exec_keeps_busy _ _ t hx hd) hnot
  · exact .inr (.inr ⟨es, he⟩)
  · obtain ⟨m, rfl⟩ := hostWriteTurn_mem_only a v _ t hm
    exact absurd hd hnot
  · obtain ⟨c, d, rfl⟩ := hostReadTurn_byte_only a _ t hr
    exact absurd hd hnot

end Sys2Proof.Proofs
